-- ==== Sys2Proof/Word.lean ====
section
/-! DEFINITION. The widths the spec counts in: one device register and one bus byte are 8 bits
(`P_DATA_BITS`, 00_scope.md R7), a `u32` or `s32` operand is 32 bits (30_encoding.md R91). -/

namespace Sys2Proof

/-- One device register, one bus byte, one byte of a frame (00_scope.md R7, R9). -/
abbrev Byte := BitVec 8

/-- A 32-bit operand, `u32` or `s32` (30_encoding.md R91). -/
abbrev Word := BitVec 32

end Sys2Proof
end

