-- ==== Sys2Proof/Machine/Vocabulary.lean ====
section
/-! DEFINITION. The names the spec uses for devices, states, status codes, lines, waits, events,
answers, records, inputs and outputs, and the numbers it gives them. -/

namespace Sys2Proof

/-- The two devices of the shared serial bus (00_scope.md R13). -/
inductive Device where
  | radio
  | can
  deriving DecidableEq, Repr, Inhabited

/-- The radio's four operating modes as the core records them (10_state.md R24). -/
inductive RadioState where
  | sleep
  | standby
  | transmitting
  | receivingContinuous
  deriving DecidableEq, Repr, Inhabited

/-- The radio's lifecycle (10_state.md R25). -/
inductive RadioLife where
  | uninit
  | ready
  | failed
  deriving DecidableEq, Repr, Inhabited

/-- The CAN controller's lifecycle (10_state.md R26). -/
inductive CanLife where
  | uninit
  | ready
  | unconfigured
  deriving DecidableEq, Repr, Inhabited

/-- Table S: the status codes a command may end with (60_exceptions.md R300). -/
inductive Status where
  | ok
  | noData
  | crcDropped
  | timeout
  | deviceNotFound
  | busIoError
  | unsupportedConfiguration
  | stateError
  | notInitialized
  | lengthError
  | codecRange
  | codecTruncated
  | illegalCommand
  | illegalOperand
  | addressRange
  | frameError
  deriving DecidableEq, Repr, Inhabited

/-- The identifier width of the CAN path, `P_CAN_ID_MODE` (42_can.md R228). -/
inductive CanIdMode where
  | std11
  | ext29
  deriving DecidableEq, Repr, Inhabited

/-- The output lines the core may drive (60_exceptions.md R306). -/
inductive Line where
  | reset
  | led
  deriving DecidableEq, Repr, Inhabited

/-- The waits the source names (70_reset_and_hazards.md table W, R346). -/
inductive Wait where
  | resetPulse
  | resetSettle
  | canSettle
  | txPoll
  | rxPoll
  deriving DecidableEq, Repr, Inhabited

/-- How a device answers one transaction (40_transport_and_control.md R131): it fails, or it shifts
bytes in. -/
inductive Answer where
  | fail
  | shift (ins : List Byte)
  deriving DecidableEq, Repr, Inhabited

/-- What the observation of the core sees, in order: a transaction with the bytes out and the bytes
in (`none` for `FAIL`, R131), the new level of a line (R306), a wait with its lower bound (R336). -/
inductive Event where
  | txn (dev : Device) (out : List Byte) (ins : Option (List Byte))
  | pin (line : Line) (level : Bool)
  | delay (wait : Wait) (atLeast : Nat)
  deriving DecidableEq, Repr, Inhabited

/-- The four element types of the codec (43_codec.md R250, table T). -/
inductive LppKind where
  | digitalInput
  | analogInput
  | accelerometer
  | gps
  deriving DecidableEq, Repr, Inhabited

/-- One decoded element: its channel, its type byte and its fields as integers (43_codec.md R260). -/
structure Record where
  channel : Byte
  type : Byte
  values : List Int
  deriving DecidableEq, Repr, Inhabited

/-- What the core answers: the result frame of a command, a status byte and its data
(30_encoding.md R96), or, for a payload element run on its own, its record in the layout of
table R. -/
inductive Output where
  | result (status : Byte) (data : List Byte)
  | record (bytes : List Byte)
  deriving DecidableEq, Repr, Inhabited

/-- What stands in front of the core: a command frame (30_encoding.md R90), the core's reset
(70_reset_and_hazards.md R330), or, for the rows of the opcode table that are no commands, the bytes
of one bus frame or of one payload element. -/
inductive Input where
  | command (bytes : List Byte)
  | bus (dev : Device) (bytes : List Byte)
  | element (bytes : List Byte)
  | coreReset
  deriving DecidableEq, Repr, Inhabited

/-- The byte of table S for each status (60_exceptions.md R300). -/
def Status.code : Status → Byte
  | .ok => 0x00
  | .noData => 0x01
  | .crcDropped => 0x02
  | .timeout => 0x03
  | .deviceNotFound => 0x10
  | .busIoError => 0x11
  | .unsupportedConfiguration => 0x12
  | .stateError => 0x13
  | .notInitialized => 0x14
  | .lengthError => 0x15
  | .codecRange => 0x16
  | .codecTruncated => 0x17
  | .illegalCommand => 0x18
  | .illegalOperand => 0x19
  | .addressRange => 0x1A
  | .frameError => 0x1B

/-- All of table S, in its order. -/
def Status.all : List Status :=
  [.ok, .noData, .crcDropped, .timeout, .deviceNotFound, .busIoError, .unsupportedConfiguration,
    .stateError, .notInitialized, .lengthError, .codecRange, .codecTruncated, .illegalCommand,
    .illegalOperand, .addressRange, .frameError]

/-- A fault code is 0x10 or above (60_exceptions.md R301). -/
def Status.isFault (st : Status) : Bool := decide (0x10 ≤ st.code.toNat)

/-- STATUS bits 1:0 (10_state.md R23). -/
def RadioState.bits : RadioState → BitVec 2
  | .sleep => 0
  | .standby => 1
  | .transmitting => 2
  | .receivingContinuous => 3

/-- STATUS bits 3:2 (10_state.md R23). -/
def RadioLife.bits : RadioLife → BitVec 2
  | .uninit => 0
  | .ready => 1
  | .failed => 2

/-- STATUS bits 5:4 (10_state.md R23). -/
def CanLife.bits : CanLife → BitVec 2
  | .uninit => 0
  | .ready => 1
  | .unconfigured => 2

end Sys2Proof
end

