-- ==== Sys2Proof/Config.lean ====
section
/-! DEFINITION. The parameters of table P as plain data (00_scope.md R7), and the constants the spec
leaves open, without a body: the OPEN parameters that have no reference value, and what a device
answers to a transaction (20_memory.md R57). -/

namespace Sys2Proof

/-- `P_CAPS`: the capability set fixed at construction (00_scope.md R7). -/
structure Caps where
  hasReset : Bool
  hasLed : Bool
  hasInterruptPin : Bool
  deriving DecidableEq, Repr, Inhabited

/-- A field of a device register: `width` bits, the lowest of them bit `low` (20_memory.md R62, R64). -/
structure Field where
  low : Nat
  width : Nat
  deriving DecidableEq, Repr, Inhabited

/-- The field positions and write values of `P_RADIO_MAP` (00_scope.md table P, 93 I17; the reference
ones are 20_memory.md R62, R63). -/
structure RadioLayout where
  /-- The Mode field of RegOpMode, and what the rest of that register is written with (R62, R63). -/
  mode : Field
  modeFixed : Byte
  /-- The four mode codes (R63). -/
  sleepCode : Byte
  standbyCode : Byte
  transmitCode : Byte
  receiveCode : Byte
  /-- Bw and CodingRate, fields of RegModemConfig1. -/
  bandwidth : Field
  codingRate : Field
  /-- The codes of the coding rates 4/5 to 4/8, in that order (41_radio.md R159). -/
  codingRateCodes : List Byte
  /-- SpreadingFactor, a field of RegModemConfig2, and RxPayloadCrcOn, a bit of it. -/
  spreadingFactor : Field
  crcOn : Fin 8
  /-- The codes of the spreading factors 6 to 12, in that order (41_radio.md R158). -/
  spreadingFactorCodes : List Byte
  /-- OutputPower, a field of RegPaConfig, and what the rest of that register is written with: the
  boosted output. -/
  outputPower : Field
  paFixed : Byte
  /-- The codes of the powers 2 to 17 dBm, in that order (41_radio.md R157). -/
  powerCodes : List Byte
  /-- The bits of RegLna that `SetLnaAgc()` sets, and what it writes to RegModemConfig3. -/
  lnaBoost : Byte
  agcOn : Byte
  /-- What `SetSpreadingFactor` writes to RegDetectOptimize and RegDetectionThreshold, for a factor of 6
  and for 7 to 12. -/
  detectOptimize6 : Byte
  detectOptimize7 : Byte
  detectionThreshold6 : Byte
  detectionThreshold7 : Byte
  /-- The event flags, bits of RegIrqFlags. -/
  rxDone : Fin 8
  crcError : Fin 8
  txDone : Fin 8
  /-- What is written to RegIrqFlags to clear TxDone (41_radio.md R171), and to clear every flag
  (R174). -/
  clearTxDone : Byte
  clearAllFlags : Byte
  deriving DecidableEq, Repr, Inhabited

/-- `P_RADIO_MAP`: the addresses, one per register the core uses, and the field positions
(20_memory.md R62). -/
structure RadioMap where
  fifo : Byte
  opMode : Byte
  frfMsb : Byte
  frfMid : Byte
  frfLsb : Byte
  paConfig : Byte
  lna : Byte
  fifoAddrPtr : Byte
  fifoRxBaseAddr : Byte
  fifoRxCurrentAddr : Byte
  irqFlags : Byte
  rxNbBytes : Byte
  pktSnrValue : Byte
  pktRssiValue : Byte
  modemConfig1 : Byte
  modemConfig2 : Byte
  preambleMsb : Byte
  preambleLsb : Byte
  payloadLength : Byte
  modemConfig3 : Byte
  detectOptimize : Byte
  detectionThreshold : Byte
  syncWord : Byte
  /-- `P_RADIO_ID_REG`, the identity register. -/
  version : Byte
  layout : RadioLayout
  deriving DecidableEq, Repr, Inhabited

/-- Where a run of identifier bits lies: the `field.width` bits from bit `idLow` of the identifier up
are the field of the identifier register of index `reg` (42_can.md R224, R225). -/
structure IdSegment where
  reg : Nat
  field : Field
  idLow : Nat
  deriving DecidableEq, Repr, Inhabited

/-- The layout of an identifier over its registers, SIDH first: what each register is written with
beside the identifier, and where the identifier's bits lie. -/
structure IdLayout where
  fixed : List Byte
  segments : List IdSegment
  deriving DecidableEq, Repr, Inhabited

/-- The field positions and write values of `P_CAN_MAP` (00_scope.md table P, 93 I17; the reference
ones are 20_memory.md R64, R65, 42_can.md R224, R225). -/
structure CanLayout where
  /-- REQOP of CANCTRL, and what the rest of that register is written with (42_can.md R222). -/
  mode : Field
  modeFixed : Byte
  /-- The three mode codes (20_memory.md R65). -/
  normal : BitVec 3
  listenOnly : BitVec 3
  configuration : BitVec 3
  /-- The full flags of the receive buffers, bits of CANINTF, from buffer 0 on; how many there are is the
  instance's (42_can.md R229, 91 N32; log entry 6). -/
  rxFull : List (Fin 8)
  /-- The DLC field of the DLC register. -/
  dlc : Field
  /-- The identifier layouts of the two widths. -/
  std11 : IdLayout
  ext29 : IdLayout
  deriving DecidableEq, Repr, Inhabited

/-- `P_CAN_MAP` (20_memory.md R64): the single registers, where mailbox 0 and receive buffer 0 begin and
how far apart neighbours lie, the offsets of a mailbox's registers (42_can.md R229), and the field
positions. -/
structure CanMap where
  canctrl : Byte
  cnf3 : Byte
  cnf2 : Byte
  cnf1 : Byte
  canintf : Byte
  txb0 : Byte
  rxb0 : Byte
  stride : Byte
  sidh : Byte
  sidl : Byte
  eid8 : Byte
  eid0 : Byte
  dlc : Byte
  data : Byte
  layout : CanLayout
  deriving DecidableEq, Repr, Inhabited

/-- One byte of a write or a read frame: a constant (a command byte, a dummy), the address moved `shift`
bits up with the bits of `keep` kept and those of `set` set, or the value written (log entry 6). -/
inductive FrameByte where
  | const (b : Byte)
  | address (shift : Nat) (keep set : Byte)
  | value
  deriving DecidableEq, Repr, Inhabited

/-- How one device's accesses are framed: the write frame, the read frame, and where the value read
stands among the bytes shifted in (40_transport_and_control.md R132, R133). -/
structure DeviceFraming where
  write : List FrameByte
  read : List FrameByte
  readPosition : Nat
  deriving DecidableEq, Repr, Inhabited

/-- `P_FRAMING`: "bytes that frame a write, a read and each device command" (00_scope.md table P). The
device commands are the CAN device's reset and its request-to-send for each transmit mailbox, from
mailbox 0 on (30_encoding.md R114, R115, R117); how many mailboxes there are is the instance's (42_can.md
R229, 91 N32; log entry 6). -/
structure Framing where
  radio : DeviceFraming
  can : DeviceFraming
  canReset : List Byte
  canRts : List (List Byte)
  deriving DecidableEq, Repr, Inhabited

/-- One entry of `P_CAN_TIMING` (42_can.md R223): a (crystal, bitrate) pair, whole numbers (DESIGN CHOICE,
log entry 19), and its triple. -/
structure CanTiming where
  crystalHz : Nat
  bitrate : Nat
  t1 : Byte
  t2 : Byte
  t3 : Byte
  deriving DecidableEq, Repr, Inhabited

/-- `P_LPP_CODES`: the four type codes (43_codec.md R251). -/
structure LppCodes where
  digitalInput : Byte
  analogInput : Byte
  accelerometer : Byte
  gps : Byte
  deriving DecidableEq, Repr, Inhabited

/-- Table P (00_scope.md R7). Fixed for the life of one instance (R8).

The waits are whole numbers, which the spec does not say of them (DESIGN CHOICE, log entry 18):
`resetSettle` and `rxPollIntervalMs` count milliseconds, `txPollDelay`, `resetPulse` and `canSettle` a unit
that the spec does not name. -/
structure Params where
  radioAddrBits : Nat
  canAddrBits : Nat
  radio : RadioMap
  can : CanMap
  framing : Framing
  /-- `P_RADIO_XTAL_HZ`; that it is a whole number of Hz is DESIGN CHOICE, log entry 19. -/
  radioXtalHz : Nat
  radioIdValue : Byte
  fifoBase : Byte
  txPollBudget : Nat
  /-- `P_TX_POLL_DELAY`, in a unit the spec does not name (log entry 18). -/
  txPollDelay : Nat
  /-- `P_RX_POLL_INTERVAL_MS`: "integer milliseconds" (table P). -/
  rxPollIntervalMs : Nat
  rssiOffset : Int
  /-- `P_BW_TABLE`; that its entries are whole numbers of Hz is DESIGN CHOICE, log entry 19. -/
  bwTable : List (Nat × BitVec 4)
  /-- `P_BW_DEFAULT_CODE`; it need not be a code of the table (DESIGN CHOICE, log entry 21). -/
  bwDefaultCode : BitVec 4
  maxPayload : Nat
  /-- `P_RESET_PULSE`, in a unit the spec does not name (log entry 18). -/
  resetPulse : Nat
  /-- `P_RESET_SETTLE` in milliseconds; that it is a whole number of them is log entry 18. -/
  resetSettle : Nat
  /-- `P_CAN_SETTLE`, in a unit the spec does not name (log entry 18). -/
  canSettle : Nat
  /-- The first of the exactly two entries of `P_CAN_TIMING`. -/
  timingA : CanTiming
  /-- The second of the exactly two entries of `P_CAN_TIMING`. -/
  timingB : CanTiming
  canIdMode : CanIdMode
  /-- `P_CAN_TX_MAILBOX`, any mailbox: how many there are is the instance's (log entry 6). -/
  canTxMailbox : Nat
  /-- `P_CAN_RX_BUFFER`, any buffer: how many there are is the instance's (log entry 6). -/
  canRxBuffer : Nat
  caps : Caps
  lppCodes : LppCodes
  unknownAdvance : Nat
  encCap : Nat
  deriving DecidableEq, Repr, Inhabited

/-- `P_TX_POLL_BUDGET` less one: the budget is an integer at least 1 and OPEN (log entry 3). -/
opaque Config.txPollBudgetLessOne : Nat

/-- `P_TX_POLL_DELAY`, OPEN (log entry 3; its unit, log entry 18). -/
opaque Config.txPollDelay : Nat

/-- `P_RX_POLL_INTERVAL_MS` less one: the interval is at least 1 ms and OPEN (log entry 3). -/
opaque Config.rxPollIntervalLessOne : Nat

/-- `P_RESET_PULSE`, OPEN (log entry 3; its unit, log entry 18). -/
opaque Config.resetPulse : Nat

/-- How many whole milliseconds `P_RESET_SETTLE` exceeds 10 ms by, OPEN (log entries 3 and 18). -/
opaque Config.resetSettleAboveTen : Nat

/-- `P_CAN_SETTLE`, OPEN (log entry 3; its unit, log entry 18). -/
opaque Config.canSettle : Nat

/-- The first entry of `P_CAN_TIMING`, OPEN (log entry 3). -/
opaque Config.timingA : CanTiming

/-- The second entry of `P_CAN_TIMING`, OPEN (log entry 3). -/
opaque Config.timingB : CanTiming

/-- `P_CAPS`, OPEN (log entry 3). -/
opaque Config.caps : Caps

/-- Free value: how a device answers the transaction of index `draw` with these bytes shifted out,
where no answer is given as an input (20_memory.md R57; log entry 4). -/
opaque Config.freeAnswer (draw : Nat) (dev : Device) (out : List Byte) : Answer

/-- Free value: the byte shifted in at a position of transaction `draw` that a given answer is too
short to name (20_memory.md R57; log entry 5). -/
opaque Config.freeByte (draw : Nat) (position : Nat) : Byte

end Sys2Proof
end

