-- ==== Sys2Proof/Machine/Operands.lean ====
section
/-! DEFINITION. The arithmetic of the spec's operands: big-endian lists, sign extension, clamping and
rounding (00_scope.md R9 to R11), operand forms (30_encoding.md R91), the radio's field values
(41_radio.md), identifier packing (42_can.md) and the codec's fields (43_codec.md). Nothing here
reads or writes State. -/

namespace Sys2Proof

/-! ## Byte lists and signs (00_scope.md R10, R11) -/

/-- `be_n` of a non-negative integer: the `n` low bytes, most significant first (R11). -/
def beNat : Nat → Nat → List Byte
  | 0, _ => []
  | n + 1, x => BitVec.ofNat 8 (x / 256 ^ n) :: beNat n x

/-- `be_n` of an integer: the bytes of `x mod 2^(8n)`, most significant first (R11). -/
def beInt (n : Nat) (x : Int) : List Byte := beNat n (x % (256 ^ n : Nat)).toNat

/-- `unbe`: the integer a list of bytes stands for, most significant first (R11). -/
def unbe (bs : List Byte) : Nat := bs.foldl (fun acc b => acc * 256 + b.toNat) 0

/-- `sext_n` (R11): subtract `2^n` when the top bit is set. -/
def sext (n : Nat) (v : Nat) : Int := if 2 ^ (n - 1) ≤ v then (v : Int) - 2 ^ n else v

/-- `clamp(x, lo, hi) = min(max(x, lo), hi)` (R10). -/
def clamp (x lo hi : Int) : Int := min (max x lo) hi

/-- `rne(p / q)`: the nearest integer, ties to the even one (R10). -/
def rneDiv (p q : Nat) : Nat :=
  let d := p / q
  let r := p % q
  if 2 * r < q then d else if q < 2 * r then d + 1 else if d % 2 = 0 then d else d + 1

/-- `rha(x)`: the nearest integer, ties away from zero (R10). The host's rounding of a real value
before it encodes it (43_codec.md R262). -/
def rha (x : ℚ) : Int := if 0 ≤ x then (x + 1 / 2).floor else -((-x + 1 / 2).floor)

/-- The 32-bit operand four bytes stand for (30_encoding.md R97). -/
def wordOf (a b c d : Byte) : Word := BitVec.ofNat 32 (unbe [a, b, c, d])

/-- The four bytes of a 32-bit operand (30_encoding.md R97). -/
def wordBytes (w : Word) : List Byte := beNat 4 w.toNat

/-! ## Operand forms (30_encoding.md R91, R95) -/

/-- A `dev` operand: 0 is the radio, 1 the CAN device, every other value is reserved. -/
def deviceOf (b : Byte) : Option Device :=
  if b = 0 then some .radio else if b = 1 then some .can else none

/-- The byte of a `dev` operand (00_scope.md R13). -/
def Device.code : Device → Byte
  | .radio => 0
  | .can => 1

/-- A `flag` operand is legal when its bits 7:1 are 0. -/
def flagLegal (b : Byte) : Bool := b &&& 0xFE == 0

/-- The value of a `flag` operand, its bit 0. -/
def flagValue (b : Byte) : Bool := b.getLsbD 0

/-- The three legal mode codes (20_memory.md R65): Normal, ListenOnly, Configuration. -/
def CanLayout.modeCodes (l : CanLayout) : List (BitVec 3) := [l.normal, l.listenOnly, l.configuration]

/-- `ValidMode` (42_can.md R221): bits 7:3 are 0 and bits 2:0 are one of the three codes. -/
def modeLegal (l : CanLayout) (b : Byte) : Bool :=
  b &&& 0xF8 == 0 && l.modeCodes.contains (b.setWidth 3)

/-- The mode code a legal `mode` operand carries, its bits 2:0. -/
def modeValue (b : Byte) : BitVec 3 := b.setWidth 3

/-- A `CAN_SEND` identifier fits the identifier width (30_encoding.md R95, 42_can.md R232). -/
def canIdLegal (m : CanIdMode) (id : Word) : Bool :=
  match m with
  | .std11 => decide (id.toNat < 2 ^ 11)
  | .ext29 => decide (id.toNat < 2 ^ 29)

/-- The number of address bits of a device (00_scope.md R7). -/
def Params.addrBits (p : Params) : Device → Nat
  | .radio => p.radioAddrBits
  | .can => p.canAddrBits

/-! ## Bus frames (40_transport_and_control.md R132 to R134) -/

/-- One byte of a frame, for an address and a value. -/
def FrameByte.byte (addr v : Byte) : FrameByte → Byte
  | .const b => b
  | .address shift keep set => set ||| ((addr <<< shift) &&& keep)
  | .value => v

/-- The framing of one device's accesses. -/
def Framing.of (f : Framing) : Device → DeviceFraming
  | .radio => f.radio
  | .can => f.can

/-- `WriteFrame` (R132). -/
def Framing.writeFrame (f : Framing) (dev : Device) (addr v : Byte) : List Byte :=
  (f.of dev).write.map (FrameByte.byte addr v)

/-- `ReadFrame` (R133); a read carries no value. -/
def Framing.readFrame (f : Framing) (dev : Device) (addr : Byte) : List Byte :=
  (f.of dev).read.map (FrameByte.byte addr 0x00)

/-- Where the value read stands among the bytes shifted in (R133). -/
def Framing.readPosition (f : Framing) (dev : Device) : Nat := (f.of dev).readPosition

/-- The request-to-send command of mailbox `n` (30_encoding.md R115), which the instance has
(`Params.wf`; log entry 15). -/
def Framing.rts (f : Framing) (n : Nat) : List Byte := f.canRts.getD n []

/-! ## Fields of a device register (20_memory.md R62, R64) -/

/-- The bits of a field. -/
def Field.mask (f : Field) : Byte := BitVec.ofNat 8 ((2 ^ f.width - 1) * 2 ^ f.low)

/-- A register's byte with the field replaced by a value, the other bits kept. -/
def Field.insert (f : Field) (r v : Byte) : Byte :=
  (r &&& ~~~f.mask) ||| ((v <<< f.low) &&& f.mask)

/-- The value of a field of a register's byte. -/
def Field.get (f : Field) (r : Byte) : Byte := (r &&& f.mask) >>> f.low

/-- The byte with one bit set, the bit's position numbered from 0 (00_scope.md R9). -/
def bitByte (n : Fin 8) : Byte := (1 : Byte) <<< n.val

/-! ## Radio field values (41_radio.md section 2) -/

/-- `ModeCode` (20_memory.md R63). -/
def RadioLayout.modeCode (l : RadioLayout) : RadioState → Byte
  | .sleep => l.sleepCode
  | .standby => l.standbyCode
  | .transmitting => l.transmitCode
  | .receivingContinuous => l.receiveCode

/-- The byte `SetMode` writes: the mode code and the fixed bits (R152). -/
def opModeByte (l : RadioLayout) (m : RadioState) : Byte := l.mode.insert l.modeFixed (l.modeCode m)

/-- `frf` (R153): rounded to nearest, ties to even, clamped to 24 bits. -/
def frfWord (xtalHz freq : Nat) : BitVec 24 :=
  BitVec.ofNat 24 (min (rneDiv (freq * 2 ^ 19) xtalHz) (2 ^ 24 - 1))

/-- The distance `|x - y|`. -/
def distance (x y : Nat) : Nat := (x - y) + (y - x)

/-- The code of the nearest entry of a table, an earlier entry keeping a tie. -/
def nearestCode (bw : Nat) (best : Nat × BitVec 4) : List (Nat × BitVec 4) → BitVec 4
  | [] => best.2
  | e :: es =>
    if distance bw e.1 < distance bw best.1 then nearestCode bw e es else nearestCode bw best es

/-- `SelectBandwidth` (R154): the default code for 0, else the nearest entry, ties to the lower
index. -/
def selectBandwidth (p : Params) (bw : Nat) : BitVec 4 :=
  if bw = 0 then p.bwDefaultCode
  else match p.bwTable with
    | [] => p.bwDefaultCode
    | e :: es => nearestCode bw e es

/-- RegModemConfig1 with its bandwidth field replaced (R155). -/
def withBandwidth (l : RadioLayout) (r : Byte) (c : BitVec 4) : Byte :=
  l.bandwidth.insert r (c.setWidth 8)

/-- RegPaConfig for a power in dBm: boosted output, and the power's code, `q - 2` in the reference profile,
in its field (R157). -/
def paConfigByte (l : RadioLayout) (p : Int) : Byte :=
  l.outputPower.insert l.paFixed (l.powerCodes.getD (clamp p 2 17 - 2).toNat 0)

/-- What is written to RegDetectOptimize and RegDetectionThreshold for a spreading factor (R158). -/
def detectionPair (l : RadioLayout) (q : Int) : Byte × Byte :=
  if q = 6 then (l.detectOptimize6, l.detectionThreshold6)
  else (l.detectOptimize7, l.detectionThreshold7)

/-- RegModemConfig2 with its field replaced by the code of a spreading factor of 6 to 12, the factor itself
in the reference profile (R158). -/
def withSpreadingFactor (l : RadioLayout) (r : Byte) (q : Int) : Byte :=
  l.spreadingFactor.insert r (l.spreadingFactorCodes.getD (q - 6).toNat 0)

/-- RegModemConfig1 with its field replaced by the code of a coding rate 4/5 to 4/8, `q - 4` in the
reference profile (R159). -/
def withCodingRate (l : RadioLayout) (r : Byte) (q : Int) : Byte :=
  l.codingRate.insert r (l.codingRateCodes.getD (q - 5).toNat 0)

/-- The 16-bit preamble length after clamping (R160). -/
def preambleWord (n : Nat) : BitVec 16 := BitVec.ofNat 16 (min n 65535)

/-- RegModemConfig2 with its CRC bit set or cleared (R162). -/
def withCrc (l : RadioLayout) (r : Byte) (e : Bool) : Byte :=
  if e then r ||| bitByte l.crcOn else r &&& ~~~bitByte l.crcOn

/-- The three bytes of `frf`, most significant first (R153). -/
def frfBytes (w : BitVec 24) : Byte × Byte × Byte :=
  (w.extractLsb' 16 8, w.extractLsb' 8 8, w.extractLsb' 0 8)

/-! ## CAN identifiers and mailboxes (42_can.md section 1) -/

/-- The layout of an identifier width. -/
def CanLayout.idLayout (l : CanLayout) : CanIdMode → IdLayout
  | .std11 => l.std11
  | .ext29 => l.ext29

/-- How many identifier registers a width uses, SIDH first: two, or all four (R232, R233). -/
def CanIdMode.registers : CanIdMode → Nat
  | .std11 => 2
  | .ext29 => 4

/-- What the identifier register of index `reg` is written with (R224, R225): the fixed bits, and each
run of identifier bits in its field. -/
def IdLayout.byteAt (l : IdLayout) (id : Word) (reg : Nat) : Byte :=
  (l.segments.filter (·.reg == reg)).foldl
    (fun r g => g.field.insert r ((id >>> g.idLow).setWidth 8)) (l.fixed.getD reg 0)

/-- `PackStd11`, `PackExt29` (R224, R225): the bytes of the identifier registers, SIDH first. -/
def CanLayout.pack (l : CanLayout) (m : CanIdMode) (id : Word) : List Byte :=
  (List.range m.registers).map ((l.idLayout m).byteAt id)

/-- `UnpackStd11`, `UnpackExt29` (R226, R227), of the bytes read from the identifier registers. -/
def CanLayout.unpack (l : CanLayout) (m : CanIdMode) (bytes : List Byte) : Word :=
  (l.idLayout m).segments.foldl
    (fun id g => id ||| ((g.field.get (bytes.getD g.reg 0)).setWidth 32 <<< g.idLow)) 0

/-- The offsets of the identifier registers a width uses, in the order of their accesses (R229). -/
def CanMap.idOffsets (c : CanMap) (m : CanIdMode) : List Byte :=
  [c.sidh, c.sidl, c.eid8, c.eid0].take m.registers

/-- `TXB(n)` of the transmit mailbox (R229); that an address sum wraps at 256 where it does not fit is log
entry 20. -/
def Params.txb (p : Params) : Byte := p.can.txb0 + p.can.stride * BitVec.ofNat 8 p.canTxMailbox

/-- `RXB(m)` of the receive buffer (R229; log entry 20). -/
def Params.rxb (p : Params) : Byte := p.can.rxb0 + p.can.stride * BitVec.ofNat 8 p.canRxBuffer

/-- The addresses of the identifier registers of the mailbox or buffer at `base` (R229). -/
def Params.idAddrs (p : Params) (base : Byte) : List Byte :=
  (p.can.idOffsets p.canIdMode).map (base + ·)

/-- The addresses of the first `n` data registers of the mailbox or buffer at `base` (R229). -/
def Params.dataAddrs (p : Params) (base : Byte) (n : Nat) : List Byte :=
  (List.range n).map fun j => base + p.can.data + BitVec.ofNat 8 j

/-- `Lookup` (R223): the triple of the entry whose pair equals (xtal, bitrate) exactly. -/
def Params.timing (p : Params) (xtal bitrate : Nat) : Option CanTiming :=
  if p.timingA.crystalHz = xtal ∧ p.timingA.bitrate = bitrate then some p.timingA
  else if p.timingB.crystalHz = xtal ∧ p.timingB.bitrate = bitrate then some p.timingB
  else none

/-- The byte written to CANCTRL for a mode code (R222). -/
def canctrlByte (l : CanLayout) (m : BitVec 3) : Byte := l.mode.insert l.modeFixed (m.setWidth 8)

/-- The byte written to the DLC register for a length: every other bit 0 (R232). -/
def dlcByte (l : CanLayout) (n : Nat) : Byte := l.dlc.insert 0x00 (BitVec.ofNat 8 n)

/-- The number of data bytes a DLC register gives, at most 8 (R233). -/
def dlcCount (l : CanLayout) (raw : Byte) : Nat := min (l.dlc.get raw).toNat 8

/-! ## Codec fields and types (43_codec.md section 1) -/

/-- The kind a type byte stands for, if it is one of the four codes (R251). -/
def LppCodes.kindOf (c : LppCodes) (t : Byte) : Option LppKind :=
  if t = c.digitalInput then some .digitalInput
  else if t = c.analogInput then some .analogInput
  else if t = c.accelerometer then some .accelerometer
  else if t = c.gps then some .gps
  else none

/-- The type byte of a kind (R251). -/
def LppCodes.codeOf (c : LppCodes) : LppKind → Byte
  | .digitalInput => c.digitalInput
  | .analogInput => c.analogInput
  | .accelerometer => c.accelerometer
  | .gps => c.gps

/-- `k` of table T: the number of fields. -/
def LppKind.fields : LppKind → Nat
  | .digitalInput => 1
  | .analogInput => 1
  | .accelerometer => 3
  | .gps => 3

/-- `w` of table T: the width of one field in bytes. -/
def LppKind.width : LppKind → Nat
  | .digitalInput => 1
  | .analogInput => 2
  | .accelerometer => 2
  | .gps => 3

/-- `N = k * w` of table T. -/
def LppKind.size (k : LppKind) : Nat := k.fields * k.width

/-- The signedness of the fields in table T. -/
def LppKind.signed : LppKind → Bool
  | .digitalInput => false
  | _ => true

/-- The scales the host applies to the fields (R251, R262). -/
def LppKind.scales : LppKind → List Nat
  | .digitalInput => [1]
  | .analogInput => [100]
  | .accelerometer => [1000, 1000, 1000]
  | .gps => [10000, 10000, 100]

/-- A scaled integer fits a field of `w` bytes (R252). -/
def fieldFits (signed : Bool) (w : Nat) (q : Int) : Bool :=
  if signed then decide (-(2 ^ (8 * w - 1)) ≤ q ∧ q < 2 ^ (8 * w - 1))
  else decide (0 ≤ q ∧ q < 2 ^ (8 * w))

/-- `EncodeField` (R252): the bytes of a field, or nothing when the value does not fit. -/
def encodeField (signed : Bool) (w : Nat) (q : Int) : Option (List Byte) :=
  if fieldFits signed w q then some (beInt w q) else none

/-- One decoded field (R260): its bytes as an integer, sign-extended where the type is signed. -/
def decodeField (signed : Bool) (bs : List Byte) : Int :=
  if signed then sext (8 * bs.length) (unbe bs) else unbe bs

/-- The `k` fields of width `w` at the front of a byte list (R260). -/
def decodeFields (signed : Bool) (w : Nat) : Nat → List Byte → List Int
  | 0, _ => []
  | k + 1, bs => decodeField signed (bs.take w) :: decodeFields signed w k (bs.drop w)

/-- `Decode` (R260), on at most `fuel` elements; an element takes at least two bytes, so a fuel of
the stream's length is enough (Laws). -/
def decodeWalk (codes : LppCodes) (advance : Nat) : Nat → List Byte → Except Status (List Record)
  | _, [] => .ok []
  | 0, _ => .ok []
  | _ + 1, [_] => .error .codecTruncated
  | fuel + 1, ch :: t :: rest =>
    match codes.kindOf t with
    | none => decodeWalk codes advance fuel (rest.drop advance)
    | some k =>
      if rest.length < k.size then .error .codecTruncated
      else match decodeWalk codes advance fuel (rest.drop k.size) with
        | .ok rs => .ok (⟨ch, t, decodeFields k.signed k.width k.fields rest⟩ :: rs)
        | .error e => .error e

/-- `Decode` of a whole stream (R260). -/
def decodeStream (p : Params) (s : List Byte) : Except Status (List Record) :=
  decodeWalk p.lppCodes p.unknownAdvance s.length s

/-- A record in the layout of table R (30_encoding.md R96, 43_codec.md R261). -/
def Record.bytes (r : Record) : List Byte :=
  r.channel :: r.type :: r.values.flatMap (fun v => beInt 4 v)

/-- The result data of `LPP_DECODE`: the count and the records (43_codec.md R261). -/
def recordsBytes (rs : List Record) : List Byte := beNat 2 rs.length ++ rs.flatMap Record.bytes

/-- The whole element of a kind: channel, type code and encoded fields, or nothing when a field does
not fit (43_codec.md R252, R255 to R258). -/
def encodeElement (codes : LppCodes) (k : LppKind) (ch : Byte) (qs : List Int) :
    Option (List Byte) :=
  (qs.mapM (encodeField k.signed k.width)).map fun fs => ch :: codes.codeOf k :: fs.flatten

/-! ## Link metrics (41_radio.md R168) -/

/-- `rssi` and `snr_q` from the two raw bytes, as result data: an `s16` and an `s8`. -/
def linkMetrics (p : Params) (rawRssi rawSnr : Byte) : List Byte :=
  beInt 2 (rawRssi.toNat - p.rssiOffset) ++ beInt 1 (sext 8 rawSnr.toNat)

end Sys2Proof
end

