-- ==== Sys2Proof/Syntax.lean ====
section
/-! DEFINITION. The instructions: one constructor per row of spec/opcode_table.json, in its order. The
first thirty are the commands of table O (30_encoding.md R92) with their operands as the frame carries
them; a `len` or `dlc` operand is the length of the byte list it counts (R91, R93). Then the six bus
frames (R110 to R115) and the four payload elements (table E, R118). -/

namespace Sys2Proof

/-- One row of spec/opcode_table.json each. -/
inductive Instr where
  /-- `BUS_WRITE dev, addr, val` (R137). -/
  | busWrite (dev addr val : Byte)
  /-- `BUS_READ dev, addr` (R138). -/
  | busRead (dev addr : Byte)
  /-- `GET_STATUS` (R139). -/
  | getStatus
  /-- `RADIO_INIT freq, bw, sf, cr, preamble, sync, txpow, crc` (R170). -/
  | radioInit (freq bw sf cr preamble : Word) (sync : Byte) (txpow : Word) (crc : Byte)
  /-- `RADIO_TRANSMIT len, payload` (R171). -/
  | radioTransmit (payload : List Byte)
  /-- `RADIO_START_RX` (R172). -/
  | radioStartRx
  /-- `RADIO_POLL_RX` (R173). -/
  | radioPollRx
  /-- `RADIO_BLOCKING_RX timeout_ms` (R174). -/
  | radioBlockingRx (timeoutMs : Word)
  /-- `RADIO_SLEEP` (R175). -/
  | radioSleep
  /-- `RADIO_STANDBY` (R176). -/
  | radioStandby
  /-- `RADIO_SET_FREQUENCY freq` (R177). -/
  | radioSetFrequency (freq : Word)
  /-- `RADIO_SET_BANDWIDTH bw` (R178). -/
  | radioSetBandwidth (bw : Word)
  /-- `RADIO_SET_LNA_AGC` (R179). -/
  | radioSetLnaAgc
  /-- `RADIO_SET_TX_POWER txpow` (R180). -/
  | radioSetTxPower (txpow : Word)
  /-- `RADIO_SET_SF sf` (R181). -/
  | radioSetSf (sf : Word)
  /-- `RADIO_SET_CR cr` (R182). -/
  | radioSetCr (cr : Word)
  /-- `RADIO_SET_PREAMBLE preamble` (R183). -/
  | radioSetPreamble (preamble : Word)
  /-- `RADIO_SET_SYNC_WORD sync` (R184). -/
  | radioSetSyncWord (sync : Byte)
  /-- `RADIO_SET_CRC crc` (R185). -/
  | radioSetCrc (crc : Byte)
  /-- `CAN_INIT xtal, bitrate, mode` (R230). -/
  | canInit (xtal bitrate : Word) (mode : Byte)
  /-- `CAN_SET_MODE mode` (R231). -/
  | canSetMode (mode : Byte)
  /-- `CAN_SEND id, dlc, data` (R232). -/
  | canSend (id : Word) (data : List Byte)
  /-- `CAN_RECEIVE` (R233). -/
  | canReceive
  /-- `LPP_ENC_RESET` (R254). -/
  | lppEncReset
  /-- `LPP_ENC_DIGITAL ch, v` (R255). -/
  | lppEncDigital (ch v : Byte)
  /-- `LPP_ENC_ANALOG ch, q` (R256). -/
  | lppEncAnalog (ch : Byte) (q : Word)
  /-- `LPP_ENC_ACCEL ch, qx, qy, qz` (R257). -/
  | lppEncAccel (ch : Byte) (qx qy qz : Word)
  /-- `LPP_ENC_GPS ch, qlat, qlon, qalt` (R258). -/
  | lppEncGps (ch : Byte) (qlat qlon qalt : Word)
  /-- `LPP_ENC_READ` (R259). -/
  | lppEncRead
  /-- `LPP_DECODE len, stream` (R261). -/
  | lppDecode (stream : List Byte)
  /-- `BUSFRAME_RADIO_WRITE` (R110): address bits 6:0 and the value. -/
  | busframeRadioWrite (addr : BitVec 7) (val : Byte)
  /-- `BUSFRAME_RADIO_READ` (R111). -/
  | busframeRadioRead (addr : BitVec 7)
  /-- `BUSFRAME_CAN_WRITE` (R112). -/
  | busframeCanWrite (addr val : Byte)
  /-- `BUSFRAME_CAN_READ` (R113). -/
  | busframeCanRead (addr : Byte)
  /-- `BUSFRAME_CAN_RESET` (R114). -/
  | busframeCanReset
  /-- `BUSFRAME_CAN_RTS` (R115): the one-hot mailbox mask of byte 0 bits 2:0. -/
  | busframeCanRts (mask : BitVec 3)
  /-- `LPP_DIGITAL_INPUT` (R251): channel and raw value. -/
  | lppDigitalInput (ch v : Byte)
  /-- `LPP_ANALOG_INPUT` (R251): channel and a 16-bit field. -/
  | lppAnalogInput (ch : Byte) (v : BitVec 16)
  /-- `LPP_ACCELEROMETER` (R251): channel and three 16-bit fields. -/
  | lppAccelerometer (ch : Byte) (x y z : BitVec 16)
  /-- `LPP_GPS` (R251): channel and three 24-bit fields. -/
  | lppGps (ch : Byte) (lat lon alt : BitVec 24)
  deriving DecidableEq, Repr, Inhabited

end Sys2Proof
end

