-- ==== Sys2Proof/WellFormed.lean ====
section
/-! DEFINITION. When an instruction is well formed. `Instr.fits`: its byte lists fit the length operand
that counts them, so that it can be written as a frame at all. `Instr.wellFormed`: it fits, and holds no
reserved operand value (30_encoding.md R95) and no request-to-send mask that is not one-hot (R115). -/

namespace Sys2Proof

/-- The lists an instruction carries fit its length operand: `len` u8, `dlc` u8, `len` u16
(30_encoding.md table O), and a request-to-send byte names one mailbox (R115). -/
def Instr.fits : Instr → Bool
  | .radioTransmit payload => decide (payload.length < 256)
  | .canSend _ data => decide (data.length < 256)
  | .lppDecode stream => decide (stream.length < 65536)
  | .busframeCanRts mask => mask == 1 || mask == 2 || mask == 4
  | _ => true

/-- The instruction holds no reserved operand value (30_encoding.md R95), for an instance's mode
codes and identifier width. -/
def Instr.operandsLegal (p : Params) : Instr → Bool
  | .busWrite dev _ _ => (deviceOf dev).isSome
  | .busRead dev _ => (deviceOf dev).isSome
  | .radioInit _ _ _ _ _ _ _ crc => flagLegal crc
  | .radioSetCrc crc => flagLegal crc
  | .canInit _ _ mode => modeLegal p.can.layout mode
  | .canSetMode mode => modeLegal p.can.layout mode
  | .canSend id _ => canIdLegal p.canIdMode id
  | _ => true

/-- Well formed: it fits its encoding and holds no reserved operand value. -/
def Instr.wellFormed (p : Params) (i : Instr) : Bool := i.fits && i.operandsLegal p

end Sys2Proof
end

