-- ==== Sys2Proof/Decode.lean ====
section
/-! DEFINITION. Decoding and encoding: command frames (30_encoding.md section 1), bus frames (section 3)
and payload elements (section 4). Decoding is total and rejects by name. Then the encoder, written from
the same tables, and the opcode table's own view of a word. -/

namespace Sys2Proof

/-! ## Frame lengths (30_encoding.md R92, R93, R98) -/

/-- How a row of table O gives its frame's length, counting the opcode byte. -/
inductive FrameLength where
  /-- A fixed length. -/
  | fixed (n : Nat)
  /-- `base` and the value of the `u8` operand at byte `at`. -/
  | plusByte (base : Nat) (position : Nat)
  /-- `base` and the value of the `u16` operand at bytes `at`, `at + 1`. -/
  | plusWord (base : Nat) (position : Nat)
  deriving DecidableEq, Repr

/-- Table O: the length each opcode defines, `none` for a reserved opcode (R92, R94). -/
def tableO (op : Nat) : Option FrameLength :=
  match op with
  | 0x01 => some (.fixed 4)
  | 0x02 => some (.fixed 3)
  | 0x03 => some (.fixed 1)
  | 0x10 => some (.fixed 27)
  | 0x11 => some (.plusByte 2 1)
  | 0x12 => some (.fixed 1)
  | 0x13 => some (.fixed 1)
  | 0x14 => some (.fixed 5)
  | 0x15 => some (.fixed 1)
  | 0x16 => some (.fixed 1)
  | 0x17 => some (.fixed 5)
  | 0x18 => some (.fixed 5)
  | 0x19 => some (.fixed 1)
  | 0x1A => some (.fixed 5)
  | 0x1B => some (.fixed 5)
  | 0x1C => some (.fixed 5)
  | 0x1D => some (.fixed 5)
  | 0x1E => some (.fixed 2)
  | 0x1F => some (.fixed 2)
  | 0x20 => some (.fixed 10)
  | 0x21 => some (.fixed 2)
  | 0x22 => some (.plusByte 6 5)
  | 0x23 => some (.fixed 1)
  | 0x30 => some (.fixed 1)
  | 0x31 => some (.fixed 3)
  | 0x32 => some (.fixed 6)
  | 0x33 => some (.fixed 14)
  | 0x34 => some (.fixed 14)
  | 0x35 => some (.fixed 1)
  | 0x38 => some (.plusWord 3 1)
  | _ => none

/-- The length a frame's row gives it, computed from the frame's own length operand where the row has
one (R93). A length operand the frame is too short to hold counts as 0: the length given is then still
longer than the frame. -/
def FrameLength.of : FrameLength → List Byte → Nat
  | .fixed n, _ => n
  | .plusByte base position, bytes => base + (bytes.getD position 0).toNat
  | .plusWord base position, bytes =>
      base + unbe [bytes.getD position 0, bytes.getD (position + 1) 0]

/-! ## Decoding -/

/-- Why a byte string decodes to no instruction. -/
inductive DecodeError where
  /-- A command frame refused with a status code: `FRAME_ERROR` or `ILLEGAL_COMMAND` (R93, R94). -/
  | status (st : Status)
  /-- Bytes handed in as a bus frame that are none of R110 to R115. -/
  | notABusFrame
  /-- Bytes handed in as a payload element that are none of table E (R118, R119). -/
  | notAnElement
  deriving DecidableEq, Repr

/-- The operands of each row of table O, after the opcode byte; `none` where the frame has not the
length its row gives (R92, R93). -/
def decodeOperands (op : Nat) (args : List Byte) : Option Instr :=
  match op with
  | 0x01 => match args with
    | [dev, addr, val] => some (.busWrite dev addr val)
    | _ => none
  | 0x02 => match args with
    | [dev, addr] => some (.busRead dev addr)
    | _ => none
  | 0x03 => match args with
    | [] => some .getStatus
    | _ => none
  | 0x10 => match args with
    | [f0, f1, f2, f3, b0, b1, b2, b3, s0, s1, s2, s3, c0, c1, c2, c3, p0, p1, p2, p3, sync,
        t0, t1, t2, t3, crc] =>
      some (.radioInit (wordOf f0 f1 f2 f3) (wordOf b0 b1 b2 b3) (wordOf s0 s1 s2 s3)
        (wordOf c0 c1 c2 c3) (wordOf p0 p1 p2 p3) sync (wordOf t0 t1 t2 t3) crc)
    | _ => none
  | 0x11 => match args with
    | len :: payload => if payload.length = len.toNat then some (.radioTransmit payload) else none
    | [] => none
  | 0x12 => match args with
    | [] => some .radioStartRx
    | _ => none
  | 0x13 => match args with
    | [] => some .radioPollRx
    | _ => none
  | 0x14 => match args with
    | [a, b, c, d] => some (.radioBlockingRx (wordOf a b c d))
    | _ => none
  | 0x15 => match args with
    | [] => some .radioSleep
    | _ => none
  | 0x16 => match args with
    | [] => some .radioStandby
    | _ => none
  | 0x17 => match args with
    | [a, b, c, d] => some (.radioSetFrequency (wordOf a b c d))
    | _ => none
  | 0x18 => match args with
    | [a, b, c, d] => some (.radioSetBandwidth (wordOf a b c d))
    | _ => none
  | 0x19 => match args with
    | [] => some .radioSetLnaAgc
    | _ => none
  | 0x1A => match args with
    | [a, b, c, d] => some (.radioSetTxPower (wordOf a b c d))
    | _ => none
  | 0x1B => match args with
    | [a, b, c, d] => some (.radioSetSf (wordOf a b c d))
    | _ => none
  | 0x1C => match args with
    | [a, b, c, d] => some (.radioSetCr (wordOf a b c d))
    | _ => none
  | 0x1D => match args with
    | [a, b, c, d] => some (.radioSetPreamble (wordOf a b c d))
    | _ => none
  | 0x1E => match args with
    | [sync] => some (.radioSetSyncWord sync)
    | _ => none
  | 0x1F => match args with
    | [crc] => some (.radioSetCrc crc)
    | _ => none
  | 0x20 => match args with
    | [x0, x1, x2, x3, b0, b1, b2, b3, mode] =>
      some (.canInit (wordOf x0 x1 x2 x3) (wordOf b0 b1 b2 b3) mode)
    | _ => none
  | 0x21 => match args with
    | [mode] => some (.canSetMode mode)
    | _ => none
  | 0x22 => match args with
    | a :: b :: c :: d :: dlc :: data =>
      if data.length = dlc.toNat then some (.canSend (wordOf a b c d) data) else none
    | _ => none
  | 0x23 => match args with
    | [] => some .canReceive
    | _ => none
  | 0x30 => match args with
    | [] => some .lppEncReset
    | _ => none
  | 0x31 => match args with
    | [ch, v] => some (.lppEncDigital ch v)
    | _ => none
  | 0x32 => match args with
    | [ch, a, b, c, d] => some (.lppEncAnalog ch (wordOf a b c d))
    | _ => none
  | 0x33 => match args with
    | [ch, x0, x1, x2, x3, y0, y1, y2, y3, z0, z1, z2, z3] =>
      some (.lppEncAccel ch (wordOf x0 x1 x2 x3) (wordOf y0 y1 y2 y3) (wordOf z0 z1 z2 z3))
    | _ => none
  | 0x34 => match args with
    | [ch, x0, x1, x2, x3, y0, y1, y2, y3, z0, z1, z2, z3] =>
      some (.lppEncGps ch (wordOf x0 x1 x2 x3) (wordOf y0 y1 y2 y3) (wordOf z0 z1 z2 z3))
    | _ => none
  | 0x35 => match args with
    | [] => some .lppEncRead
    | _ => none
  | 0x38 => match args with
    | a :: b :: stream =>
      if stream.length = unbe [a, b] then some (.lppDecode stream) else none
    | _ => none
  | _ => none

/-- A command frame (R93, R94, R99), in the order of 60_exceptions.md R302: the empty frame, then the
opcode, then the length. -/
def decodeCommand : List Byte → Except DecodeError Instr
  | [] => .error (.status .frameError)
  | op :: args =>
    if (tableO op.toNat).isSome then
      match decodeOperands op.toNat args with
      | some i => .ok i
      | none => .error (.status .frameError)
    else .error (.status .illegalCommand)

/-- The bytes of one bus frame of a device (R110 to R115). A read's dummy byte is 0x00 (R116). -/
def decodeBusFrame : Device → List Byte → Except DecodeError Instr
  | .radio, [b0, b1] =>
    if b0.msb then .ok (.busframeRadioWrite (b0.setWidth 7) b1)
    else if b1 = 0 then .ok (.busframeRadioRead (b0.setWidth 7))
    else .error .notABusFrame
  | .can, [b0] =>
    if b0 = 0xC0 then .ok .busframeCanReset
    else if b0 = 0x81 then .ok (.busframeCanRts 1)
    else if b0 = 0x82 then .ok (.busframeCanRts 2)
    else if b0 = 0x84 then .ok (.busframeCanRts 4)
    else .error .notABusFrame
  | .can, [b0, b1, b2] =>
    if b0 = 0x02 then .ok (.busframeCanWrite b1 b2)
    else if b0 = 0x03 ∧ b2 = 0 then .ok (.busframeCanRead b1)
    else .error .notABusFrame
  | _, _ => .error .notABusFrame

/-- The bytes of one payload element (table E, R118), matched on its byte 1. -/
def decodeElement (codes : LppCodes) : List Byte → Except DecodeError Instr
  | ch :: t :: value =>
    match codes.kindOf t, value with
    | some .digitalInput, [v] => .ok (.lppDigitalInput ch v)
    | some .analogInput, [a, b] => .ok (.lppAnalogInput ch (BitVec.ofNat 16 (unbe [a, b])))
    | some .accelerometer, [a, b, c, d, e, f] =>
      .ok (.lppAccelerometer ch (BitVec.ofNat 16 (unbe [a, b])) (BitVec.ofNat 16 (unbe [c, d]))
        (BitVec.ofNat 16 (unbe [e, f])))
    | some .gps, [a, b, c, d, e, f, g, h, i] =>
      .ok (.lppGps ch (BitVec.ofNat 24 (unbe [a, b, c])) (BitVec.ofNat 24 (unbe [d, e, f]))
        (BitVec.ofNat 24 (unbe [g, h, i])))
    | _, _ => .error .notAnElement
  | _ => .error .notAnElement

/-- What one input holds. The core's reset is no instruction and is not decoded (`none`). -/
def decodeInput (codes : LppCodes) : Input → Option (Except DecodeError Instr)
  | .command bytes => some (decodeCommand bytes)
  | .bus dev bytes => some (decodeBusFrame dev bytes)
  | .element bytes => some (decodeElement codes bytes)
  | .coreReset => none

/-! ## Encoding -/

/-- The bytes of an instruction and the port they belong to, from the same tables. -/
def encode (codes : LppCodes) : Instr → Input
  | .busWrite dev addr val => .command [0x01, dev, addr, val]
  | .busRead dev addr => .command [0x02, dev, addr]
  | .getStatus => .command [0x03]
  | .radioInit freq bw sf cr preamble sync txpow crc =>
    .command (0x10 :: (wordBytes freq ++ wordBytes bw ++ wordBytes sf ++ wordBytes cr ++
      wordBytes preamble ++ [sync] ++ wordBytes txpow ++ [crc]))
  | .radioTransmit payload => .command (0x11 :: BitVec.ofNat 8 payload.length :: payload)
  | .radioStartRx => .command [0x12]
  | .radioPollRx => .command [0x13]
  | .radioBlockingRx timeoutMs => .command (0x14 :: wordBytes timeoutMs)
  | .radioSleep => .command [0x15]
  | .radioStandby => .command [0x16]
  | .radioSetFrequency freq => .command (0x17 :: wordBytes freq)
  | .radioSetBandwidth bw => .command (0x18 :: wordBytes bw)
  | .radioSetLnaAgc => .command [0x19]
  | .radioSetTxPower txpow => .command (0x1A :: wordBytes txpow)
  | .radioSetSf sf => .command (0x1B :: wordBytes sf)
  | .radioSetCr cr => .command (0x1C :: wordBytes cr)
  | .radioSetPreamble preamble => .command (0x1D :: wordBytes preamble)
  | .radioSetSyncWord sync => .command [0x1E, sync]
  | .radioSetCrc crc => .command [0x1F, crc]
  | .canInit xtal bitrate mode => .command (0x20 :: (wordBytes xtal ++ wordBytes bitrate ++ [mode]))
  | .canSetMode mode => .command [0x21, mode]
  | .canSend id data =>
    .command (0x22 :: (wordBytes id ++ BitVec.ofNat 8 data.length :: data))
  | .canReceive => .command [0x23]
  | .lppEncReset => .command [0x30]
  | .lppEncDigital ch v => .command [0x31, ch, v]
  | .lppEncAnalog ch q => .command (0x32 :: ch :: wordBytes q)
  | .lppEncAccel ch qx qy qz =>
    .command (0x33 :: ch :: (wordBytes qx ++ wordBytes qy ++ wordBytes qz))
  | .lppEncGps ch qlat qlon qalt =>
    .command (0x34 :: ch :: (wordBytes qlat ++ wordBytes qlon ++ wordBytes qalt))
  | .lppEncRead => .command [0x35]
  | .lppDecode stream => .command (0x38 :: (beNat 2 stream.length ++ stream))
  | .busframeRadioWrite addr val => .bus .radio [0x80 ||| addr.setWidth 8, val]
  | .busframeRadioRead addr => .bus .radio [addr.setWidth 8, 0x00]
  | .busframeCanWrite addr val => .bus .can [0x02, addr, val]
  | .busframeCanRead addr => .bus .can [0x03, addr, 0x00]
  | .busframeCanReset => .bus .can [0xC0]
  | .busframeCanRts mask => .bus .can [0x80 ||| mask.setWidth 8]
  | .lppDigitalInput ch v => .element [ch, codes.digitalInput, v]
  | .lppAnalogInput ch v => .element (ch :: codes.analogInput :: beNat 2 v.toNat)
  | .lppAccelerometer ch x y z =>
    .element (ch :: codes.accelerometer :: (beNat 2 x.toNat ++ beNat 2 y.toNat ++ beNat 2 z.toNat))
  | .lppGps ch lat lon alt =>
    .element (ch :: codes.gps :: (beNat 3 lat.toNat ++ beNat 3 lon.toNat ++ beNat 3 alt.toNat))

/-! ## The opcode table's view of a word (log entry 10) -/

/-- The `n` bytes of a word, the byte of bits 7:0 first. -/
def bytesOfWord : Nat → Nat → List Byte
  | 0, _ => []
  | n + 1, w => BitVec.ofNat 8 w :: bytesOfWord n (w / 256)

/-- Zero bytes appended up to length `n`. -/
def padTo (n : Nat) (bytes : List Byte) : List Byte :=
  bytes ++ List.replicate (n - bytes.length) 0

/-- A command frame completed with zero operand bytes to the length its row gives it. -/
def padCommand (l : FrameLength) (bytes : List Byte) : List Byte := padTo (l.of bytes) bytes

/-- The input a word of the opcode table stands for. The rows of the three encodings overlap in their
low byte, so the row that fixes more bits wins, an earlier row before a later one: commands, then the
CAN reset, then the payload elements (whose matched byte is byte 1, after a channel byte 0), then a
request-to-send, then the radio bus frames. -/
def tableInput (nbits w : Nat) : Input :=
  let bytes := bytesOfWord (nbits / 8) w
  let op := w % 256
  match tableO op with
  | some l => .command (padCommand l bytes)
  | none =>
    match op with
    | 0xC0 => .bus .can bytes
    | 0x00 => .element (padTo 3 (0 :: bytes))
    | 0x71 => .element (padTo 8 (0 :: bytes))
    | 0x88 => .element (padTo 11 (0 :: bytes))
    | 0x81 => .bus .can bytes
    | 0x82 => .bus .can bytes
    | 0x84 => .bus .can bytes
    | _ => .bus .radio (padTo 2 bytes)

/-- The instruction the decoder reads from a word of the opcode table, with the reference type codes;
`none` where it refuses. -/
def decodeTableWord (nbits w : Nat) : Option Instr :=
  match decodeInput ⟨0x00, 0x02, 0x71, 0x88⟩ (tableInput nbits w) with
  | some (.ok i) => some i
  | _ => none

end Sys2Proof
end

