-- ==== Sys2Proof/Machine/Profile.lean ====
section
/-! DEFINITION. The values of table P at reset: the spec's own where it gives one, the reference
profile where it gives that (00_scope.md R7, 20_memory.md R62 to R65, 30_encoding.md R110 to R115,
42_can.md R224 to R229, 43_codec.md R251), the opaque constants of Config where it leaves the parameter
OPEN. -/

namespace Sys2Proof

/-- The radio field positions and write values of the reference profile (20_memory.md R62, R63,
41_radio.md R152, R155 to R159, R162). -/
def RadioLayout.reference : RadioLayout where
  mode := ⟨0, 3⟩
  modeFixed := 0x80
  sleepCode := 0b000
  standbyCode := 0b001
  transmitCode := 0b011
  receiveCode := 0b101
  bandwidth := ⟨4, 4⟩
  codingRate := ⟨1, 3⟩
  codingRateCodes := [1, 2, 3, 4]
  spreadingFactor := ⟨4, 4⟩
  crcOn := 2
  spreadingFactorCodes := [6, 7, 8, 9, 10, 11, 12]
  outputPower := ⟨0, 4⟩
  paFixed := 0x80
  powerCodes := [0, 1, 2, 3, 4, 5, 6, 7, 8, 9, 10, 11, 12, 13, 14, 15]
  lnaBoost := 0x03
  agcOn := 0x04
  detectOptimize6 := 0xC5
  detectOptimize7 := 0xC3
  detectionThreshold6 := 0x0C
  detectionThreshold7 := 0x0A
  rxDone := 6
  crcError := 5
  txDone := 3
  clearTxDone := 0x08
  clearAllFlags := 0xFF

/-- The radio register map of the reference profile (20_memory.md R62). -/
def RadioMap.reference : RadioMap where
  fifo := 0x00
  opMode := 0x01
  frfMsb := 0x06
  frfMid := 0x07
  frfLsb := 0x08
  paConfig := 0x09
  lna := 0x0C
  fifoAddrPtr := 0x0D
  fifoRxBaseAddr := 0x0F
  fifoRxCurrentAddr := 0x10
  irqFlags := 0x12
  rxNbBytes := 0x13
  pktSnrValue := 0x19
  pktRssiValue := 0x1A
  modemConfig1 := 0x1D
  modemConfig2 := 0x1E
  preambleMsb := 0x20
  preambleLsb := 0x21
  payloadLength := 0x22
  modemConfig3 := 0x26
  detectOptimize := 0x31
  detectionThreshold := 0x37
  syncWord := 0x39
  version := 0x42
  layout := .reference

/-- The CAN field positions and write values of the reference profile (20_memory.md R64, R65, 42_can.md
R222, R224 to R227). -/
def CanLayout.reference : CanLayout where
  mode := ⟨5, 3⟩
  modeFixed := 0x00
  normal := 0b000
  listenOnly := 0b011
  configuration := 0b100
  rxFull := [0, 1]
  dlc := ⟨0, 4⟩
  std11 := ⟨[0x00, 0x00], [⟨0, ⟨0, 8⟩, 3⟩, ⟨1, ⟨5, 3⟩, 0⟩]⟩
  ext29 := ⟨[0x00, 0x08, 0x00, 0x00],
    [⟨0, ⟨0, 8⟩, 21⟩, ⟨1, ⟨5, 3⟩, 18⟩, ⟨1, ⟨0, 2⟩, 16⟩, ⟨2, ⟨0, 8⟩, 8⟩, ⟨3, ⟨0, 8⟩, 0⟩]⟩

/-- The CAN register map of the reference profile (20_memory.md R64, 42_can.md R229). -/
def CanMap.reference : CanMap where
  canctrl := 0x0F
  cnf3 := 0x28
  cnf2 := 0x29
  cnf1 := 0x2A
  canintf := 0x2C
  txb0 := 0x30
  rxb0 := 0x60
  stride := 0x10
  sidh := 0x01
  sidl := 0x02
  eid8 := 0x03
  eid0 := 0x04
  dlc := 0x05
  data := 0x06
  layout := .reference

/-- The reference framing (30_encoding.md R110 to R115). -/
def Framing.reference : Framing where
  radio := ⟨[.address 0 0x7F 0x80, .value], [.address 0 0x7F 0x00, .const 0x00], 1⟩
  can := ⟨[.const 0x02, .address 0 0xFF 0x00, .value],
    [.const 0x03, .address 0 0xFF 0x00, .const 0x00], 2⟩
  canReset := [0xC0]
  canRts := [[0x81], [0x82], [0x84]]

/-- Table B, the reference bandwidth table (20_memory.md R62). -/
def bwTableReference : List (Nat × BitVec 4) :=
  [(7800, 0), (10400, 1), (15600, 2), (20800, 3), (31250, 4), (41700, 5), (62500, 6), (125000, 7),
    (250000, 8), (500000, 9)]

/-- The reference type codes (43_codec.md R251, table T). -/
def LppCodes.reference : LppCodes where
  digitalInput := 0x00
  analogInput := 0x02
  accelerometer := 0x71
  gps := 0x88

/-- The parameters of the instance that `State.reset` is an instance of (log entries 2 and 3). -/
def Config.params : Params where
  radioAddrBits := 7
  canAddrBits := 8
  radio := .reference
  can := .reference
  framing := .reference
  radioXtalHz := 32000000
  radioIdValue := 0x12
  fifoBase := 0x00
  txPollBudget := Config.txPollBudgetLessOne + 1
  txPollDelay := Config.txPollDelay
  rxPollIntervalMs := Config.rxPollIntervalLessOne + 1
  rssiOffset := 157
  bwTable := bwTableReference
  bwDefaultCode := 7
  maxPayload := 255
  resetPulse := Config.resetPulse
  resetSettle := 10 + Config.resetSettleAboveTen
  canSettle := Config.canSettle
  timingA := Config.timingA
  timingB := Config.timingB
  canIdMode := .std11
  canTxMailbox := 0
  canRxBuffer := 0
  caps := Config.caps
  lppCodes := .reference
  unknownAdvance := 1
  encCap := 255

end Sys2Proof
end

