-- ==== Sys2Proof/Machine/State.lean ====
section
/-! DEFINITION. The machine's state: CoreState (10_state.md R20), the parameters of the instance
(00_scope.md R7, R8), and the model's own view of the host, the bus and the devices' answers. Then the
reasons a step can stop, and the state after reset. -/

namespace Sys2Proof.Machine

open Sys2Proof

/-- The state between two commands. The first twelve fields are CoreState, "and nothing else"
(10_state.md R20). -/
structure State where
  /-- The core's record of the radio's mode (R24). -/
  radioState : RadioState
  /-- The radio's lifecycle (R25). -/
  radioLife : RadioLife
  /-- The CAN controller's lifecycle (R26). -/
  canLife : CanLife
  /-- The mode code last written to the CAN device, 0b111 when none has been (R27). -/
  canMode : BitVec 3
  /-- Sticky: a configuration command was issued outside Sleep and Standby (R28). -/
  rwHazard : Bool
  /-- The status code of the last command other than `GET_STATUS` (R29). -/
  lastStatus : Byte
  /-- The encoder buffer, index 0 first (R30). -/
  encBuf : List Byte
  /-- Sticky: bit k says that a command ended with status code 0x10 + k (R31). -/
  faults : BitVec 16
  /-- The select output of the radio, true when asserted (R32). -/
  csRadio : Bool
  /-- The select output of the CAN device (R32). -/
  csCan : Bool
  /-- The level driven on the radio's reset line (R33). -/
  resetLine : Bool
  /-- The level driven on the status LED (R33). -/
  ledLine : Bool
  /-- Table P: the parameters of this instance, which nothing writes (00_scope.md R7, R8). -/
  params : Params
  /-- Model's own: what the host has handed in and the core has not taken yet, oldest first (R90). -/
  inbox : List Input
  /-- Model's own: what the core has answered, oldest first (R96). -/
  outbox : List Output
  /-- Model's own: the observation of the bus, the lines and the waits, oldest first (R4, R131). -/
  trace : List Event
  /-- Model's own, an input: the devices' answers to the next transactions (R57, R131). Where it is
  empty a transaction's answer is the free value `Config.freeAnswer` of its index. -/
  replies : List Answer
  /-- Model's own: the index of the next transaction's free answer. -/
  draws : Nat
  deriving DecidableEq, Repr

/-- The core has no fault that stops it: a command that cannot go on ends with a status code and the
core takes the next command (60_exceptions.md R303, R304, R308). -/
inductive Fault where
  deriving DecidableEq, Repr

/-- Why a step has no meaning. -/
inductive Refusal where
  /-- Raised by `exec` for an instruction that has no meaning yet. Safe: the machine stops. -/
  | notModelled (mnemonic : String)
  /-- Raised by `step` on bytes handed in as a bus frame that are none of 30_encoding.md R110 to R115,
  which the core never emits. Safe: the machine stops. -/
  | notABusFrame
  /-- Raised by `step` on bytes handed in as a payload element that are none (30_encoding.md R119: such
  a byte string "is not an element"). Safe: the machine stops. -/
  | notAnElement
  deriving DecidableEq, Repr

/-- CoreState at its reset values (70_reset_and_hazards.md R330), with the instance's parameters kept
(00_scope.md R8). What the host, the bus and the devices have is not the core's and stays. -/
def State.coreReset (s : State) : State :=
  { s with
    radioState := .sleep
    radioLife := .uninit
    canLife := .uninit
    canMode := 0b111
    rwHazard := false
    lastStatus := 0x00
    encBuf := []
    faults := 0x0000
    csRadio := false
    csCan := false
    resetLine := true
    ledLine := false }

/-- The machine right after reset (R330), with nothing handed in, nothing answered, nothing observed
and no answer given. -/
def State.reset : State where
  radioState := .sleep
  radioLife := .uninit
  canLife := .uninit
  canMode := 0b111
  rwHazard := false
  lastStatus := 0x00
  encBuf := []
  faults := 0x0000
  csRadio := false
  csCan := false
  resetLine := true
  ledLine := false
  params := Config.params
  inbox := []
  outbox := []
  trace := []
  replies := []
  draws := 0

end Sys2Proof.Machine
end

