-- ==== Sys2Proof/Machine/Flags.lean ====
section
/-! DEFINITION. The status word, the fault register's bits and the event flags the core reads in the
devices' flag registers (10_state.md R23, R31, R37; 20_memory.md R62, R64). -/

namespace Sys2Proof.Machine

open Sys2Proof

/-- `STATUS` (R23), bits 31:24 first: ENC_LEN, LAST_STATUS, two reserved bits, HAS_INT, HAS_LED,
HAS_RESET, CAN_EXT, RW_HAZARD, CAN_MODE, CAN_LIFE, RADIO_LIFE, RADIO_STATE. -/
def State.status (s : State) : Word :=
  BitVec.ofNat 8 s.encBuf.length ++ s.lastStatus ++ (0#2) ++
    BitVec.ofBool s.params.caps.hasInterruptPin ++ BitVec.ofBool s.params.caps.hasLed ++
    BitVec.ofBool s.params.caps.hasReset ++
    BitVec.ofBool (s.params.canIdMode == .ext29) ++ BitVec.ofBool s.rwHazard ++ s.canMode ++
    s.canLife.bits ++ s.radioLife.bits ++ s.radioState.bits

/-- The fault register after a command ends with a status (R31, 60_exceptions.md R305): a fault code
0x10 + k sets bit k, every other code sets none. -/
def recordFault (faults : BitVec 16) (st : Status) : BitVec 16 :=
  if st.isFault then faults ||| ((1 : BitVec 16) <<< (st.code.toNat - 0x10)) else faults

/-- TxDone in an image of the radio's flag register (20_memory.md R62). -/
def txDone (l : RadioLayout) (f : Byte) : Bool := f.getLsbD l.txDone.val

/-- RxDone (R62). -/
def rxDone (l : RadioLayout) (f : Byte) : Bool := f.getLsbD l.rxDone.val

/-- PayloadCrcError (R62). -/
def crcError (l : RadioLayout) (f : Byte) : Bool := f.getLsbD l.crcError.val

/-- RXmIF, the position of the full flag of receive buffer `m`, which the instance has (`Params.wf`; log
entry 15), in the CAN device's flag register (R64). -/
def rxFullBit (l : CanLayout) (m : Nat) : Fin 8 := l.rxFull.getD m 0

/-- Whether receive buffer `m` is full, by an image of the flag register (42_can.md R233). -/
def rxFull (l : CanLayout) (m : Nat) (f : Byte) : Bool := f.getLsbD (rxFullBit l m).val

/-- The CAN flag image with the full flag of buffer `m` cleared (42_can.md R233). -/
def clearRxFull (l : CanLayout) (m : Nat) (f : Byte) : Byte := f &&& ~~~bitByte (rxFullBit l m)

end Sys2Proof.Machine
end

