-- ==== Sys2Proof/Machine/Ops.lean ====
section
/-! DEFINITION. The named operations over the state: the updates of single fields, the bus transaction
and the primitives on it (40_transport_and_control.md section 1), lines and waits, the checks of
60_exceptions.md R302, and the end of a command (R304, R305), which is the core's one way of taking an
exception. The core has no return from one (R303, R308): the host's next command is what follows. -/

namespace Sys2Proof.Machine

open Sys2Proof

/-! ## Updates of single fields -/

/-- `radio_state <- m`. -/
def State.setRadioState (s : State) (m : RadioState) : State := { s with radioState := m }

/-- `radio_life <- l`. -/
def State.setRadioLife (s : State) (l : RadioLife) : State := { s with radioLife := l }

/-- `can_life <- l`. -/
def State.setCanLife (s : State) (l : CanLife) : State := { s with canLife := l }

/-- `can_mode <- m`. -/
def State.setCanMode (s : State) (m : BitVec 3) : State := { s with canMode := m }

/-- `rw_hazard <- 1`. -/
def State.raiseHazard (s : State) : State := { s with rwHazard := true }

/-- `enc_buf <- bs`. -/
def State.setEncBuf (s : State) (bs : List Byte) : State := { s with encBuf := bs }

/-- The select output of a device driven to a level (10_state.md R32). -/
def State.setSelect (s : State) (dev : Device) (level : Bool) : State :=
  match dev with
  | .radio => { s with csRadio := level }
  | .can => { s with csCan := level }

/-- An output line driven to a level (60_exceptions.md R306). -/
def State.setLine (s : State) (line : Line) (level : Bool) : State :=
  match line with
  | .reset => { s with resetLine := level }
  | .led => { s with ledLine := level }

/-- One more event observed. -/
def State.logged (s : State) (e : Event) : State := { s with trace := s.trace ++ [e] }

/-- One answer of the devices used up. -/
def State.drewAnswer (s : State) : State :=
  { s with replies := s.replies.tail, draws := s.draws + 1 }

/-- One more thing answered to the host. -/
def State.answered (s : State) (o : Output) : State := { s with outbox := s.outbox ++ [o] }

/-- The rest of the inbox after its first input has been taken. -/
def State.setInbox (s : State) (is : List Input) : State := { s with inbox := is }

/-! ## The devices' answers (20_memory.md R57) -/

/-- The answer to the `k`-th transaction from now on: the `k`-th given one, else the free value of its
index. -/
def State.answerAt (s : State) (k : Nat) (dev : Device) (out : List Byte) : Answer :=
  match s.replies[k]? with
  | some a => a
  | none => Config.freeAnswer (s.draws + k) dev out

/-- The `n` bytes shifted in, from position `i` on, of a transaction of index `draw` whose given bytes
are `ins`: a position they do not name is a free value. -/
def shiftIn (draw : Nat) : Nat → Nat → List Byte → List Byte
  | _, 0, _ => []
  | i, n + 1, [] => Config.freeByte draw i :: shiftIn draw (i + 1) n []
  | i, n + 1, b :: bs => b :: shiftIn draw (i + 1) n bs

/-- What the `k`-th transaction from now on shifts in when `out` is shifted out, one byte for every byte
out (30_encoding.md R116); `none` for `FAIL`. -/
def State.receivedAt (s : State) (k : Nat) (dev : Device) (out : List Byte) : Option (List Byte) :=
  match s.answerAt k dev out with
  | .fail => none
  | .shift ins => some (shiftIn (s.draws + k) 0 out.length ins)

/-- The value a read of `addr` returns when it is the `k`-th transaction from now on (R133); 0 stands
for a read that fails, whose value no rule uses. -/
def State.readAt (s : State) (k : Nat) (dev : Device) (addr : Byte) : Byte :=
  ((s.receivedAt k dev (s.params.framing.readFrame dev addr)).getD []).getD
    (s.params.framing.readPosition dev) 0

/-! ## The transaction (40_transport_and_control.md R131) -/

/-- The state a transaction leaves, whether it fails or not: the select is asserted, the bytes are
shifted, the select is deasserted, the event is recorded. -/
def State.afterTxn (s : State) (dev : Device) (out : List Byte) : State :=
  (((s.setSelect dev true).drewAnswer).setSelect dev false).logged
    (.txn dev out (s.receivedAt 0 dev out))

/-- The steps of a command: each goes on with a value, or raises a status (60_exceptions.md R304); every
state field written before stays written. -/
abbrev Act (α : Type) := EStateM Status State α

/-- `Txn(dev, out)` (R131): the bytes shifted in, or `BUS_IO_ERROR`, never retried (R136). -/
def txn (dev : Device) (out : List Byte) : Act (List Byte) := fun s =>
  match s.receivedAt 0 dev out with
  | some ins => .ok ins (s.afterTxn dev out)
  | none => .error .busIoError (s.afterTxn dev out)

/-- The instance's parameters. -/
def params : Act Params := fun s => .ok s.params s

/-- `BusWrite(dev, addr, v)` (R132). -/
def busWrite (dev : Device) (addr v : Byte) : Act Unit := do
  let p ← params
  let _ ← txn dev (p.framing.writeFrame dev addr v)
  pure ()

/-- `BusRead(dev, addr)` (R133): the byte at the framing's read position. A transaction shifts in as
many bytes as it shifts out (30_encoding.md R116), so that position exists wherever the read frame is
long enough (`Framing.wf`; log entry 15). -/
def busRead (dev : Device) (addr : Byte) : Act Byte := do
  let p ← params
  let ins ← txn dev (p.framing.readFrame dev addr)
  pure (ins.getD (p.framing.readPosition dev) 0)

/-- `BusCmd(dev, bytes)` (R134). -/
def busCmd (dev : Device) (bytes : List Byte) : Act Unit := do
  let _ ← txn dev bytes
  pure ()

/-! ## Lines, waits and fields -/

/-- A step that changes the state and cannot raise. -/
def update (f : State → State) : Act Unit := fun s => .ok () (f s)

/-- `SetPin(line, level)` (60_exceptions.md R306): the level is recorded in the state and observed. -/
def setPin (line : Line) (level : Bool) : Act Unit :=
  update fun s => (s.setLine line level).logged (.pin line level)

/-- `Delay(t)` (70_reset_and_hazards.md R336): observed, and without any other effect. -/
def delay (w : Wait) (t : Nat) : Act Unit := update fun s => s.logged (.delay w t)

/-- A write of the radio register the map names (00_scope.md R13). -/
def radioWrite (reg : RadioMap → Byte) (v : Byte) : Act Unit := do
  let p ← params
  busWrite .radio (reg p.radio) v

/-- A read of the radio register the map names. -/
def radioRead (reg : RadioMap → Byte) : Act Byte := do
  let p ← params
  busRead .radio (reg p.radio)

/-- A write of the CAN register the map names. -/
def canWrite (reg : CanMap → Byte) (v : Byte) : Act Unit := do
  let p ← params
  busWrite .can (reg p.can) v

/-- A read of the CAN register the map names. -/
def canRead (reg : CanMap → Byte) : Act Byte := do
  let p ← params
  busRead .can (reg p.can)

/-! ## Checks (60_exceptions.md R302) -/

/-- `raise E` unless a condition holds. -/
def require (c : Bool) (e : Status) : Act Unit := fun s => if c then .ok () s else .error e s

/-- `RadioGate()` (41_radio.md R150). -/
def radioGate : Act Unit := fun s =>
  match s.radioLife with
  | .failed => .error .deviceNotFound s
  | .uninit => .error .notInitialized s
  | .ready => .ok () s

/-- The state check of R171 to R174. -/
def requireRadioState (m : RadioState) : Act Unit := fun s =>
  if s.radioState = m then .ok () s else .error .stateError s

/-- The state after `HazardCheck()` (41_radio.md R151). -/
def State.hazardChecked (s : State) : State :=
  if s.radioState = .sleep ∨ s.radioState = .standby then s else s.raiseHazard

/-- `HazardCheck()` (41_radio.md R151). -/
def hazardCheck : Act Unit := update State.hazardChecked

/-- `CanGate()` (42_can.md R220). -/
def canGate : Act Unit := fun s =>
  if s.canLife = .ready then .ok () s else .error .notInitialized s

/-! ## The end of a command (60_exceptions.md R304, R305) -/

/-- The end of every command but `GET_STATUS`: the bookkeeping of R305 and the result frame of
30_encoding.md R96. Every refusal and every fault of a command goes through here. -/
def State.ended (s : State) (st : Status) (data : List Byte) : State :=
  { s with
    lastStatus := st.code
    faults := recordFault s.faults st
    outbox := s.outbox ++ [.result st.code data] }

/-- A command run to its end: the status and data it returns, or the status it raises, which carries no
data (R304). -/
def State.afterCommand (s : State) (body : Act (Status × List Byte)) : State :=
  match body s with
  | .ok r s' => s'.ended r.1 r.2
  | .error st s' => s'.ended st []

/-- The outcome of a command: always a next state. -/
def runCommand (body : Act (Status × List Byte)) (s : State) : Host.Outcome State Fault Refusal :=
  .next (s.afterCommand body)

/-- `return (OK, none)`. -/
def done : Act (Status × List Byte) := pure (.ok, [])

/-- `return (S, none)` with an informational status. -/
def doneWith (st : Status) : Act (Status × List Byte) := pure (st, [])

/-- `return (OK, data)`. -/
def doneData (data : List Byte) : Act (Status × List Byte) := pure (.ok, data)

/-- The outcome of an input that decodes to no instruction: a command frame ends with its status
(30_encoding.md R99), bytes of the two other encodings are refused by name (log entry 11). -/
def refuseInput (e : DecodeError) (s : State) : Host.Outcome State Fault Refusal :=
  match e with
  | .status st => .next (s.ended st [])
  | .notABusFrame => .refused .notABusFrame
  | .notAnElement => .refused .notAnElement

/-- The instruction an input holds, with the instance's type codes. -/
def State.decode (s : State) (i : Input) : Option (Except DecodeError Instr) :=
  decodeInput s.params.lppCodes i

end Sys2Proof.Machine
end

