-- ==== Sys2Proof/Machine/Can.lean ====
section
/-! DEFINITION. The CAN family (42_can.md): the mode write, the mailbox accesses and the four
commands. -/

namespace Sys2Proof.Machine

open Sys2Proof

/-- `SetCanMode(m)` (R222): the record follows the write only once the write has completed. -/
def setCanMode (m : BitVec 3) : Act Unit := do
  let p ← params
  canWrite CanMap.canctrl (canctrlByte p.can.layout m)
  update (State.setCanMode · m)

/-- One write per pair of an address and a byte, in order (R232, 20_memory.md R66). -/
def writeCanBytes : List (Byte × Byte) → Act Unit
  | [] => pure ()
  | w :: ws => do
    busWrite .can w.1 w.2
    writeCanBytes ws

/-- One read per address, in order (R233, 20_memory.md R66). -/
def readCanBytes : List Byte → Act (List Byte)
  | [] => pure []
  | a :: as => do
    let b ← busRead .can a
    let bs ← readCanBytes as
    pure (b :: bs)

/-- `CAN_INIT` (R230). -/
def execCanInit (xtal bitrate : Word) (mode : Byte) (s : State) :
    Host.Outcome State Fault Refusal :=
  runCommand (do
    let p ← params
    require (modeLegal p.can.layout mode) .illegalOperand
    busCmd .can p.framing.canReset
    delay .canSettle p.canSettle
    match p.timing xtal.toNat bitrate.toNat with
    | none => do
      update (State.setCanLife · .unconfigured)
      throw .unsupportedConfiguration
    | some t => do
      canWrite CanMap.cnf1 t.t1
      canWrite CanMap.cnf2 t.t2
      canWrite CanMap.cnf3 t.t3
      setCanMode (modeValue mode)
      update (State.setCanLife · .ready)
      done) s

/-- `CAN_SET_MODE` (R231). -/
def execCanSetMode (mode : Byte) (s : State) : Host.Outcome State Fault Refusal :=
  runCommand (do
    let p ← params
    require (modeLegal p.can.layout mode) .illegalOperand
    canGate
    setCanMode (modeValue mode)
    done) s

/-- `CAN_SEND` (R232). -/
def execCanSend (id : Word) (data : List Byte) (s : State) : Host.Outcome State Fault Refusal :=
  runCommand (do
    let p ← params
    require (canIdLegal p.canIdMode id) .illegalOperand
    require (decide (data.length ≤ 8)) .lengthError
    canGate
    writeCanBytes ((p.idAddrs p.txb).zip (p.can.layout.pack p.canIdMode id))
    busWrite .can (p.txb + p.can.dlc) (dlcByte p.can.layout data.length)
    writeCanBytes ((p.dataAddrs p.txb data.length).zip data)
    busCmd .can (p.framing.rts p.canTxMailbox)
    done) s

/-- `CAN_RECEIVE` (R233). -/
def execCanReceive (s : State) : Host.Outcome State Fault Refusal :=
  runCommand (do
    canGate
    let p ← params
    let f ← canRead CanMap.canintf
    if rxFull p.can.layout p.canRxBuffer f then do
      let ids ← readCanBytes (p.idAddrs p.rxb)
      let raw ← busRead .can (p.rxb + p.can.dlc)
      let k := dlcCount p.can.layout raw
      let data ← readCanBytes (p.dataAddrs p.rxb k)
      canWrite CanMap.canintf (clearRxFull p.can.layout p.canRxBuffer f)
      doneData (wordBytes (p.can.layout.unpack p.canIdMode ids) ++ BitVec.ofNat 8 k :: data)
    else doneWith .noData) s

end Sys2Proof.Machine
end

