-- ==== Sys2Proof/Machine/Codec.lean ====
section
/-! DEFINITION. The codec family (43_codec.md): the encoder buffer and the seven commands. The codec
makes no bus transaction. -/

namespace Sys2Proof.Machine

open Sys2Proof

/-- `Append(el)` (R253): the whole element, or `LENGTH_ERROR` and nothing. -/
def appendElement (el : List Byte) : Act Unit := fun s =>
  if s.encBuf.length + el.length ≤ s.params.encCap then .ok () (s.setEncBuf (s.encBuf ++ el))
  else .error .lengthError s

/-- An element encoder (R255 to R258): encode every field, then append the element. A field that does
not fit is `CODEC_RANGE`, before the capacity check. -/
def encodeCommand (k : LppKind) (ch : Byte) (qs : List Int) : Act (Status × List Byte) := do
  let p ← params
  match encodeElement p.lppCodes k ch qs with
  | none => throw .codecRange
  | some el => do
    appendElement el
    done

/-- `LPP_ENC_RESET` (R254). -/
def execLppEncReset (s : State) : Host.Outcome State Fault Refusal :=
  runCommand (do
    update (State.setEncBuf · [])
    done) s

/-- `LPP_ENC_DIGITAL` (R255). -/
def execLppEncDigital (ch v : Byte) (s : State) : Host.Outcome State Fault Refusal :=
  runCommand (encodeCommand .digitalInput ch [v.toNat]) s

/-- `LPP_ENC_ANALOG` (R256). -/
def execLppEncAnalog (ch : Byte) (q : Word) (s : State) : Host.Outcome State Fault Refusal :=
  runCommand (encodeCommand .analogInput ch [q.toInt]) s

/-- `LPP_ENC_ACCEL` (R257). -/
def execLppEncAccel (ch : Byte) (qx qy qz : Word) (s : State) :
    Host.Outcome State Fault Refusal :=
  runCommand (encodeCommand .accelerometer ch [qx.toInt, qy.toInt, qz.toInt]) s

/-- `LPP_ENC_GPS` (R258). -/
def execLppEncGps (ch : Byte) (qlat qlon qalt : Word) (s : State) :
    Host.Outcome State Fault Refusal :=
  runCommand (encodeCommand .gps ch [qlat.toInt, qlon.toInt, qalt.toInt]) s

/-- `LPP_ENC_READ` (R259): the length in one byte, then the buffer, which stays. -/
def execLppEncRead (s : State) : Host.Outcome State Fault Refusal :=
  runCommand (fun s => .ok (.ok, BitVec.ofNat 8 s.encBuf.length :: s.encBuf) s) s

/-- `LPP_DECODE` (R261). -/
def execLppDecode (stream : List Byte) (s : State) : Host.Outcome State Fault Refusal :=
  runCommand (do
    let p ← params
    match decodeStream p stream with
    | .ok rs => doneData (recordsBytes rs)
    | .error e => throw e) s

end Sys2Proof.Machine
end

