-- ==== Sys2Proof/Machine/Frames.lean ====
section
/-! DEFINITION. The ten rows of the opcode table that are no commands. A bus frame run on its own is the
one transaction that shifts it out (40_transport_and_control.md R131; log entry 8); these rows are the
reference framing's, whatever the framing of the instance. A payload element
run on its own is what the decoder makes of it, its record (43_codec.md R260; log entry 9). Neither is a
command, so the bookkeeping of 60_exceptions.md R305 is not made. -/

namespace Sys2Proof.Machine

open Sys2Proof

/-- `BUSFRAME_RADIO_WRITE` (30_encoding.md R110). -/
def execBusframeRadioWrite (addr : BitVec 7) (val : Byte) (s : State) :
    Host.Outcome State Fault Refusal :=
  .next (s.afterTxn .radio (Framing.reference.writeFrame .radio (addr.setWidth 8) val))

/-- `BUSFRAME_RADIO_READ` (R111). -/
def execBusframeRadioRead (addr : BitVec 7) (s : State) : Host.Outcome State Fault Refusal :=
  .next (s.afterTxn .radio (Framing.reference.readFrame .radio (addr.setWidth 8)))

/-- `BUSFRAME_CAN_WRITE` (R112). -/
def execBusframeCanWrite (addr val : Byte) (s : State) : Host.Outcome State Fault Refusal :=
  .next (s.afterTxn .can (Framing.reference.writeFrame .can addr val))

/-- `BUSFRAME_CAN_READ` (R113). -/
def execBusframeCanRead (addr : Byte) (s : State) : Host.Outcome State Fault Refusal :=
  .next (s.afterTxn .can (Framing.reference.readFrame .can addr))

/-- `BUSFRAME_CAN_RESET` (R114). -/
def execBusframeCanReset (s : State) : Host.Outcome State Fault Refusal :=
  .next (s.afterTxn .can Framing.reference.canReset)

/-- `BUSFRAME_CAN_RTS` (R115). -/
def execBusframeCanRts (mask : BitVec 3) (s : State) : Host.Outcome State Fault Refusal :=
  .next (s.afterTxn .can [0x80 ||| mask.setWidth 8])

/-- The record of one element of a kind, from the unsigned values of its fields: each is sign-extended
from its own width where the type is signed (43_codec.md R251, R260). -/
def elementRecord (codes : LppCodes) (k : LppKind) (ch : Byte) (raws : List Nat) : Record :=
  ⟨ch, codes.codeOf k, raws.map fun v => if k.signed then sext (8 * k.width) v else (v : Int)⟩

/-- One element decoded: its record answered, nothing else changed; the decoder has no memory
(20_memory.md R54). -/
def State.decodedElement (s : State) (k : LppKind) (ch : Byte) (raws : List Nat) : State :=
  s.answered (.record (elementRecord s.params.lppCodes k ch raws).bytes)

/-- `LPP_DIGITAL_INPUT` (43_codec.md R251). -/
def execLppDigitalInput (ch v : Byte) (s : State) : Host.Outcome State Fault Refusal :=
  .next (s.decodedElement .digitalInput ch [v.toNat])

/-- `LPP_ANALOG_INPUT` (R251). -/
def execLppAnalogInput (ch : Byte) (v : BitVec 16) (s : State) : Host.Outcome State Fault Refusal :=
  .next (s.decodedElement .analogInput ch [v.toNat])

/-- `LPP_ACCELEROMETER` (R251). -/
def execLppAccelerometer (ch : Byte) (x y z : BitVec 16) (s : State) :
    Host.Outcome State Fault Refusal :=
  .next (s.decodedElement .accelerometer ch [x.toNat, y.toNat, z.toNat])

/-- `LPP_GPS` (R251). -/
def execLppGps (ch : Byte) (lat lon alt : BitVec 24) (s : State) :
    Host.Outcome State Fault Refusal :=
  .next (s.decodedElement .gps ch [lat.toNat, lon.toNat, alt.toNat])

end Sys2Proof.Machine
end

