-- ==== Sys2Proof/Machine/Radio.lean ====
section
/-! DEFINITION. The radio family (41_radio.md): the register sequences the commands are built from, and
the sixteen commands. -/

namespace Sys2Proof.Machine

open Sys2Proof

/-! ## Register sequences (section 2) -/

/-- `SetMode(m)` (R152): the record follows the write only once the write has completed. -/
def setMode (m : RadioState) : Act Unit := do
  let p ← params
  radioWrite RadioMap.opMode (opModeByte p.radio.layout m)
  update (State.setRadioState · m)

/-- `SetFrequency(f)` (R153). -/
def setFrequency (f : Nat) : Act Unit := do
  let p ← params
  let w := frfBytes (frfWord p.radioXtalHz f)
  radioWrite RadioMap.frfMsb w.1
  radioWrite RadioMap.frfMid w.2.1
  radioWrite RadioMap.frfLsb w.2.2

/-- `SetBandwidth(bw)` (R154, R155). -/
def setBandwidth (bw : Nat) : Act Unit := do
  let p ← params
  let r ← radioRead RadioMap.modemConfig1
  radioWrite RadioMap.modemConfig1 (withBandwidth p.radio.layout r (selectBandwidth p bw))

/-- `SetLnaAgc()` (R156). -/
def setLnaAgc : Act Unit := do
  let p ← params
  let r ← radioRead RadioMap.lna
  radioWrite RadioMap.lna (r ||| p.radio.layout.lnaBoost)
  radioWrite RadioMap.modemConfig3 p.radio.layout.agcOn

/-- `SetTxPower(p)` (R157). -/
def setTxPower (dBm : Int) : Act Unit := do
  let p ← params
  radioWrite RadioMap.paConfig (paConfigByte p.radio.layout dBm)

/-- `SetSpreadingFactor(s)` (R158). -/
def setSpreadingFactor (sf : Int) : Act Unit := do
  let p ← params
  let q := clamp sf 6 12
  radioWrite RadioMap.detectOptimize (detectionPair p.radio.layout q).1
  radioWrite RadioMap.detectionThreshold (detectionPair p.radio.layout q).2
  let r ← radioRead RadioMap.modemConfig2
  radioWrite RadioMap.modemConfig2 (withSpreadingFactor p.radio.layout r q)

/-- `SetCodingRate(c)` (R159). -/
def setCodingRate (c : Int) : Act Unit := do
  let p ← params
  let r ← radioRead RadioMap.modemConfig1
  radioWrite RadioMap.modemConfig1 (withCodingRate p.radio.layout r (clamp c 5 8))

/-- `SetPreamble(n)` (R160). -/
def setPreamble (n : Nat) : Act Unit := do
  radioWrite RadioMap.preambleMsb ((preambleWord n).extractLsb' 8 8)
  radioWrite RadioMap.preambleLsb ((preambleWord n).extractLsb' 0 8)

/-- `SetSyncWord(w)` (R161). -/
def setSyncWord (w : Byte) : Act Unit := radioWrite RadioMap.syncWord w

/-- `SetCrc(e)` (R162). -/
def setCrc (e : Bool) : Act Unit := do
  let p ← params
  let r ← radioRead RadioMap.modemConfig2
  radioWrite RadioMap.modemConfig2 (withCrc p.radio.layout r e)

/-- `ResetFifoTx()` (R163). -/
def resetFifoTx : Act Unit := do
  let p ← params
  radioWrite RadioMap.fifoAddrPtr p.fifoBase

/-- `ResetFifoRx()` (R164). -/
def resetFifoRx : Act Unit := do
  let p ← params
  radioWrite RadioMap.fifoRxBaseAddr p.fifoBase
  radioWrite RadioMap.fifoAddrPtr p.fifoBase

/-- `RestartRx()` (R165). -/
def restartRx : Act Unit := do
  resetFifoRx
  setMode .receivingContinuous

/-- `n` reads of the FIFO data register, one transaction per byte (R166, 20_memory.md R66). -/
def readFifo : Nat → Act (List Byte)
  | 0 => pure []
  | n + 1 => do
    let b ← radioRead RadioMap.fifo
    let bs ← readFifo n
    pure (b :: bs)

/-- One write of the FIFO data register per byte (R171). -/
def writeFifo : List Byte → Act Unit
  | [] => pure ()
  | b :: bs => do
    radioWrite RadioMap.fifo b
    writeFifo bs

/-- `ReadPacket()` (R166): the length and the bytes. -/
def readPacket : Act (Byte × List Byte) := do
  let n ← radioRead RadioMap.rxNbBytes
  let cur ← radioRead RadioMap.fifoRxCurrentAddr
  radioWrite RadioMap.fifoAddrPtr cur
  let bs ← readFifo n.toNat
  pure (n, bs)

/-- The poll loop of `RADIO_TRANSMIT` (R171): at most `n` reads of the flag register, with a wait
between two of them; whether TxDone was seen. -/
def pollTxDone : Nat → Act Bool
  | 0 => pure false
  | n + 1 => do
    let p ← params
    let f ← radioRead RadioMap.irqFlags
    if txDone p.radio.layout f then pure true
    else if n = 0 then pure false
    else do
      delay .txPoll p.txPollDelay
      pollTxDone n

/-- The poll loop of `RADIO_BLOCKING_RX` (R174): at most `n` reads of the flag register, with a wait
between two of them; the flag image in which RxDone was seen, if one was. -/
def pollRxDone : Nat → Act (Option Byte)
  | 0 => pure none
  | n + 1 => do
    let p ← params
    let f ← radioRead RadioMap.irqFlags
    if rxDone p.radio.layout f then pure (some f)
    else if n = 0 then pure none
    else do
      delay .rxPoll p.rxPollIntervalMs
      pollRxDone n

/-- The reset pulse of `RADIO_INIT`, made only where the reset line is present (R170). -/
def pulseReset : Act Unit := do
  let p ← params
  if p.caps.hasReset then do
    setPin .reset false
    delay .resetPulse p.resetPulse
    setPin .reset true
    delay .resetSettle p.resetSettle
  else pure ()

/-- The identity check of `RADIO_INIT` (R170): a wrong byte makes the radio `Failed`. -/
def checkIdentity : Act Unit := do
  let p ← params
  let id ← radioRead RadioMap.version
  if id = p.radioIdValue then pure ()
  else do
    update (State.setRadioLife · .failed)
    throw .deviceNotFound

/-- The first check alone of `RadioGate()`, which `RADIO_INIT` makes (R150, R170). -/
def notFailed : Act Unit := fun s =>
  if s.radioLife = .failed then .error .deviceNotFound s else .ok () s

/-- What every single-parameter configuration command does around its sequence (R177 to R185). -/
def configure (sequence : Act Unit) : Act (Status × List Byte) := do
  radioGate
  hazardCheck
  sequence
  done

/-! ## Commands (section 5) -/

/-- `RADIO_INIT` (R170). -/
def execRadioInit (freq bw sf cr preamble : Word) (sync : Byte) (txpow : Word) (crc : Byte)
    (s : State) : Host.Outcome State Fault Refusal :=
  runCommand (do
    require (flagLegal crc) .illegalOperand
    notFailed
    pulseReset
    checkIdentity
    setMode .sleep
    setFrequency freq.toNat
    setBandwidth bw.toNat
    setLnaAgc
    setTxPower txpow.toInt
    setSpreadingFactor sf.toInt
    setCodingRate cr.toInt
    setPreamble preamble.toNat
    setSyncWord sync
    setCrc (flagValue crc)
    setMode .standby
    update (State.setRadioLife · .ready)
    done) s

/-- `RADIO_TRANSMIT` (R171). -/
def execRadioTransmit (payload : List Byte) (s : State) : Host.Outcome State Fault Refusal :=
  runCommand (do
    let p ← params
    require (decide (0 < payload.length ∧ payload.length ≤ p.maxPayload)) .lengthError
    radioGate
    requireRadioState .standby
    resetFifoTx
    writeFifo payload
    radioWrite RadioMap.payloadLength (BitVec.ofNat 8 payload.length)
    setMode .transmitting
    let seen ← pollTxDone p.txPollBudget
    radioWrite RadioMap.irqFlags p.radio.layout.clearTxDone
    if seen then do
      update (State.setRadioState · .standby)
      done
    else do
      setMode .standby
      doneWith .timeout) s

/-- `RADIO_START_RX` (R172). -/
def execRadioStartRx (s : State) : Host.Outcome State Fault Refusal :=
  runCommand (do
    radioGate
    requireRadioState .standby
    resetFifoRx
    setMode .receivingContinuous
    done) s

/-- `RADIO_POLL_RX` (R173). -/
def execRadioPollRx (s : State) : Host.Outcome State Fault Refusal :=
  runCommand (do
    radioGate
    requireRadioState .receivingContinuous
    let p ← params
    let f ← radioRead RadioMap.irqFlags
    if rxDone p.radio.layout f then
      if crcError p.radio.layout f then do
        radioWrite RadioMap.irqFlags f
        restartRx
        doneWith .crcDropped
      else do
        let rawRssi ← radioRead RadioMap.pktRssiValue
        let rawSnr ← radioRead RadioMap.pktSnrValue
        let packet ← readPacket
        radioWrite RadioMap.irqFlags f
        restartRx
        doneData (linkMetrics p rawRssi rawSnr ++ packet.1 :: packet.2)
    else doneWith .noData) s

/-- `RADIO_BLOCKING_RX` (R174). -/
def execRadioBlockingRx (timeoutMs : Word) (s : State) : Host.Outcome State Fault Refusal :=
  runCommand (do
    radioGate
    requireRadioState .standby
    resetFifoRx
    setMode .receivingContinuous
    let p ← params
    let event ← pollRxDone (timeoutMs.toNat / p.rxPollIntervalMs + 1)
    match event with
    | some f =>
      if crcError p.radio.layout f then do
        radioWrite RadioMap.irqFlags f
        setMode .standby
        doneWith .crcDropped
      else do
        let packet ← readPacket
        radioWrite RadioMap.irqFlags f
        setMode .standby
        doneData (packet.1 :: packet.2)
    | none => do
      radioWrite RadioMap.irqFlags p.radio.layout.clearAllFlags
      setMode .standby
      doneWith .timeout) s

/-- `RADIO_SLEEP` (R175). -/
def execRadioSleep (s : State) : Host.Outcome State Fault Refusal :=
  runCommand (do
    radioGate
    setMode .sleep
    done) s

/-- `RADIO_STANDBY` (R176). -/
def execRadioStandby (s : State) : Host.Outcome State Fault Refusal :=
  runCommand (do
    radioGate
    setMode .standby
    done) s

/-- `RADIO_SET_FREQUENCY` (R177). -/
def execRadioSetFrequency (freq : Word) (s : State) : Host.Outcome State Fault Refusal :=
  runCommand (configure (setFrequency freq.toNat)) s

/-- `RADIO_SET_BANDWIDTH` (R178). -/
def execRadioSetBandwidth (bw : Word) (s : State) : Host.Outcome State Fault Refusal :=
  runCommand (configure (setBandwidth bw.toNat)) s

/-- `RADIO_SET_LNA_AGC` (R179). -/
def execRadioSetLnaAgc (s : State) : Host.Outcome State Fault Refusal :=
  runCommand (configure setLnaAgc) s

/-- `RADIO_SET_TX_POWER` (R180). -/
def execRadioSetTxPower (txpow : Word) (s : State) : Host.Outcome State Fault Refusal :=
  runCommand (configure (setTxPower txpow.toInt)) s

/-- `RADIO_SET_SF` (R181). -/
def execRadioSetSf (sf : Word) (s : State) : Host.Outcome State Fault Refusal :=
  runCommand (configure (setSpreadingFactor sf.toInt)) s

/-- `RADIO_SET_CR` (R182). -/
def execRadioSetCr (cr : Word) (s : State) : Host.Outcome State Fault Refusal :=
  runCommand (configure (setCodingRate cr.toInt)) s

/-- `RADIO_SET_PREAMBLE` (R183). -/
def execRadioSetPreamble (preamble : Word) (s : State) : Host.Outcome State Fault Refusal :=
  runCommand (configure (setPreamble preamble.toNat)) s

/-- `RADIO_SET_SYNC_WORD` (R184). -/
def execRadioSetSyncWord (sync : Byte) (s : State) : Host.Outcome State Fault Refusal :=
  runCommand (configure (setSyncWord sync)) s

/-- `RADIO_SET_CRC` (R185). -/
def execRadioSetCrc (crc : Byte) (s : State) : Host.Outcome State Fault Refusal :=
  runCommand (do
    require (flagLegal crc) .illegalOperand
    configure (setCrc (flagValue crc))) s

end Sys2Proof.Machine
end

