-- ==== Sys2Proof/Machine/Transport.lean ====
section
/-! DEFINITION. The transport-and-control commands (40_transport_and_control.md section 2). -/

namespace Sys2Proof.Machine

open Sys2Proof

/-- The operand checks of a raw access (R137, R138): the device, then the address. -/
def rawDevice (dev addr : Byte) : Act Device := fun s =>
  match deviceOf dev with
  | none => .error .illegalOperand s
  | some d => if addr.toNat < 2 ^ s.params.addrBits d then .ok d s else .error .addressRange s

/-- `BUS_WRITE` (R137). -/
def execBusWrite (dev addr val : Byte) (s : State) : Host.Outcome State Fault Refusal :=
  runCommand (do
    let d ← rawDevice dev addr
    busWrite d addr val
    done) s

/-- `BUS_READ` (R138). -/
def execBusRead (dev addr : Byte) (s : State) : Host.Outcome State Fault Refusal :=
  runCommand (do
    let d ← rawDevice dev addr
    let v ← busRead d addr
    doneData [v]) s

/-- `GET_STATUS` (R139). The only command that leaves `last_status` alone (60_exceptions.md R305). -/
def execGetStatus (s : State) : Host.Outcome State Fault Refusal :=
  .next (s.answered (.result Status.ok.code (beNat 4 s.status.toNat ++ beNat 2 s.faults.toNat)))

end Sys2Proof.Machine
end

