-- ==== Sys2Proof/Machine/Dispatch.lean ====
section
/-! DEFINITION. One arm per constructor of Instr, each one call of the instruction's meaning. -/

namespace Sys2Proof.Machine

open Sys2Proof

def exec (i : Instr) (s : State) : Host.Outcome State Fault Refusal :=
  match i with
  | .busWrite dev addr val => Sys2Proof.Machine.execBusWrite dev addr val s
  | .busRead dev addr => Sys2Proof.Machine.execBusRead dev addr s
  | .getStatus => Sys2Proof.Machine.execGetStatus s
  | .radioInit freq bw sf cr preamble sync txpow crc => Sys2Proof.Machine.execRadioInit freq bw sf cr preamble sync txpow crc s
  | .radioTransmit payload => Sys2Proof.Machine.execRadioTransmit payload s
  | .radioStartRx => Sys2Proof.Machine.execRadioStartRx s
  | .radioPollRx => Sys2Proof.Machine.execRadioPollRx s
  | .radioBlockingRx timeoutMs => Sys2Proof.Machine.execRadioBlockingRx timeoutMs s
  | .radioSleep => Sys2Proof.Machine.execRadioSleep s
  | .radioStandby => Sys2Proof.Machine.execRadioStandby s
  | .radioSetFrequency freq => Sys2Proof.Machine.execRadioSetFrequency freq s
  | .radioSetBandwidth bw => Sys2Proof.Machine.execRadioSetBandwidth bw s
  | .radioSetLnaAgc => Sys2Proof.Machine.execRadioSetLnaAgc s
  | .radioSetTxPower txpow => Sys2Proof.Machine.execRadioSetTxPower txpow s
  | .radioSetSf sf => Sys2Proof.Machine.execRadioSetSf sf s
  | .radioSetCr cr => Sys2Proof.Machine.execRadioSetCr cr s
  | .radioSetPreamble preamble => Sys2Proof.Machine.execRadioSetPreamble preamble s
  | .radioSetSyncWord sync => Sys2Proof.Machine.execRadioSetSyncWord sync s
  | .radioSetCrc crc => Sys2Proof.Machine.execRadioSetCrc crc s
  | .canInit xtal bitrate mode => Sys2Proof.Machine.execCanInit xtal bitrate mode s
  | .canSetMode mode => Sys2Proof.Machine.execCanSetMode mode s
  | .canSend id data => Sys2Proof.Machine.execCanSend id data s
  | .canReceive => Sys2Proof.Machine.execCanReceive s
  | .lppEncReset => Sys2Proof.Machine.execLppEncReset s
  | .lppEncDigital ch v => Sys2Proof.Machine.execLppEncDigital ch v s
  | .lppEncAnalog ch q => Sys2Proof.Machine.execLppEncAnalog ch q s
  | .lppEncAccel ch qx qy qz => Sys2Proof.Machine.execLppEncAccel ch qx qy qz s
  | .lppEncGps ch qlat qlon qalt => Sys2Proof.Machine.execLppEncGps ch qlat qlon qalt s
  | .lppEncRead => Sys2Proof.Machine.execLppEncRead s
  | .lppDecode stream => Sys2Proof.Machine.execLppDecode stream s
  | .busframeRadioWrite addr val => Sys2Proof.Machine.execBusframeRadioWrite addr val s
  | .busframeRadioRead addr => Sys2Proof.Machine.execBusframeRadioRead addr s
  | .busframeCanWrite addr val => Sys2Proof.Machine.execBusframeCanWrite addr val s
  | .busframeCanRead addr => Sys2Proof.Machine.execBusframeCanRead addr s
  | .busframeCanReset => Sys2Proof.Machine.execBusframeCanReset s
  | .busframeCanRts mask => Sys2Proof.Machine.execBusframeCanRts mask s
  | .lppDigitalInput ch v => Sys2Proof.Machine.execLppDigitalInput ch v s
  | .lppAnalogInput ch v => Sys2Proof.Machine.execLppAnalogInput ch v s
  | .lppAccelerometer ch x y z => Sys2Proof.Machine.execLppAccelerometer ch x y z s
  | .lppGps ch lat lon alt => Sys2Proof.Machine.execLppGps ch lat lon alt s

end Sys2Proof.Machine
end

