-- ==== Sys2Proof/Machine/Step.lean ====
section
/-! DEFINITION. One step: the core takes the first input and runs it to completion (00_scope.md R5,
60_exceptions.md R313). With nothing handed in it waits, and nothing changes (70_reset_and_hazards.md
R332). There is no fetch and no program counter (10_state.md R22). -/

namespace Sys2Proof.Machine

open Sys2Proof

def step (s : State) : Host.Outcome State Fault Refusal :=
  match s.inbox with
  | [] => .next s
  | i :: rest =>
    match s.decode i with
    | none => .next (s.setInbox rest).coreReset
    | some (.ok instr) => exec instr (s.setInbox rest)
    | some (.error e) => refuseInput e (s.setInbox rest)

/-- The word of the opcode table put in front of everything the host has handed in, completed with
zero operand bytes to the whole instruction (log entry 10). -/
def State.withFetchWord (s : State) (nbits w : Nat) : State :=
  s.setInbox (tableInput nbits w :: s.inbox)

end Sys2Proof.Machine
end

