-- ==== Sys2Proof/Machine/Assembler.lean ====
section
/-! DEFINITION. The assembler's side of the commands: their spelling (30_encoding.md R120) and the
pseudo-instructions, which take exact real values and expand to commands (R121, 43_codec.md R262). -/

namespace Sys2Proof

/-- The spelling of a byte list operand: bracketed, its length operand omitted (R120). -/
def spellBytes (bs : List Byte) : String :=
  "[" ++ ", ".intercalate (bs.map fun b => toString b.toNat) ++ "]"

/-- The spelling of a `dev` operand; a reserved value is spelled as its number. -/
def spellDevice (b : Byte) : String :=
  match deviceOf b with
  | some .radio => "RADIO"
  | some .can => "CAN"
  | none => toString b.toNat

/-- The spelling of a `mode` operand; a reserved value is spelled as its number. -/
def spellMode (l : CanLayout) (b : Byte) : String :=
  if b = l.normal.setWidth 8 then "NORMAL" else if b = l.listenOnly.setWidth 8 then "LISTEN_ONLY"
  else if b = l.configuration.setWidth 8 then "CONFIGURATION" else toString b.toNat

/-- A mnemonic with its operands, separated by commas (R120). -/
def spellCommand (mnemonic : String) (operands : List String) : String :=
  match operands with
  | [] => mnemonic
  | _ => mnemonic ++ " " ++ ", ".intercalate operands

/-- The assembler spelling of a command (R120), integers in decimal; the rows that are no commands have
none. -/
def Instr.spelling (l : CanLayout) : Instr → Option String
  | .busWrite dev addr val =>
    some (spellCommand "BUS_WRITE" [spellDevice dev, toString addr.toNat, toString val.toNat])
  | .busRead dev addr => some (spellCommand "BUS_READ" [spellDevice dev, toString addr.toNat])
  | .getStatus => some "GET_STATUS"
  | .radioInit freq bw sf cr preamble sync txpow crc =>
    some (spellCommand "RADIO_INIT" [toString freq.toNat, toString bw.toNat, toString sf.toInt,
      toString cr.toInt, toString preamble.toNat, toString sync.toNat, toString txpow.toInt,
      toString crc.toNat])
  | .radioTransmit payload => some (spellCommand "RADIO_TRANSMIT" [spellBytes payload])
  | .radioStartRx => some "RADIO_START_RX"
  | .radioPollRx => some "RADIO_POLL_RX"
  | .radioBlockingRx timeoutMs => some (spellCommand "RADIO_BLOCKING_RX" [toString timeoutMs.toNat])
  | .radioSleep => some "RADIO_SLEEP"
  | .radioStandby => some "RADIO_STANDBY"
  | .radioSetFrequency freq => some (spellCommand "RADIO_SET_FREQUENCY" [toString freq.toNat])
  | .radioSetBandwidth bw => some (spellCommand "RADIO_SET_BANDWIDTH" [toString bw.toNat])
  | .radioSetLnaAgc => some "RADIO_SET_LNA_AGC"
  | .radioSetTxPower txpow => some (spellCommand "RADIO_SET_TX_POWER" [toString txpow.toInt])
  | .radioSetSf sf => some (spellCommand "RADIO_SET_SF" [toString sf.toInt])
  | .radioSetCr cr => some (spellCommand "RADIO_SET_CR" [toString cr.toInt])
  | .radioSetPreamble preamble => some (spellCommand "RADIO_SET_PREAMBLE" [toString preamble.toNat])
  | .radioSetSyncWord sync => some (spellCommand "RADIO_SET_SYNC_WORD" [toString sync.toNat])
  | .radioSetCrc crc => some (spellCommand "RADIO_SET_CRC" [toString crc.toNat])
  | .canInit xtal bitrate mode =>
    some (spellCommand "CAN_INIT" [toString xtal.toNat, toString bitrate.toNat, spellMode l mode])
  | .canSetMode mode => some (spellCommand "CAN_SET_MODE" [spellMode l mode])
  | .canSend id data => some (spellCommand "CAN_SEND" [toString id.toNat, spellBytes data])
  | .canReceive => some "CAN_RECEIVE"
  | .lppEncReset => some "LPP_ENC_RESET"
  | .lppEncDigital ch v =>
    some (spellCommand "LPP_ENC_DIGITAL" [toString ch.toNat, toString v.toNat])
  | .lppEncAnalog ch q =>
    some (spellCommand "LPP_ENC_ANALOG" [toString ch.toNat, toString q.toInt])
  | .lppEncAccel ch qx qy qz =>
    some (spellCommand "LPP_ENC_ACCEL" [toString ch.toNat, toString qx.toInt, toString qy.toInt,
      toString qz.toInt])
  | .lppEncGps ch qlat qlon qalt =>
    some (spellCommand "LPP_ENC_GPS" [toString ch.toNat, toString qlat.toInt, toString qlon.toInt,
      toString qalt.toInt])
  | .lppEncRead => some "LPP_ENC_READ"
  | .lppDecode stream => some (spellCommand "LPP_DECODE" [spellBytes stream])
  | .busframeRadioWrite _ _ => none
  | .busframeRadioRead _ => none
  | .busframeCanWrite _ _ => none
  | .busframeCanRead _ => none
  | .busframeCanReset => none
  | .busframeCanRts _ => none
  | .lppDigitalInput _ _ => none
  | .lppAnalogInput _ _ => none
  | .lppAccelerometer _ _ _ _ => none
  | .lppGps _ _ _ _ => none

/-- The pseudo-instructions of R121. -/
inductive Pseudo where
  | encAnalogV (ch : Byte) (v : ℚ)
  | encAccelV (ch : Byte) (x y z : ℚ)
  | encGpsV (ch : Byte) (lat lon alt : ℚ)
  | encDigitalB (ch : Byte) (b : Bool)
  | radioTx (payload : List Byte)
  | radioRestartRx
  | canNormal
  deriving DecidableEq, Repr

/-- An integer as an `s32` operand, if it is one (30_encoding.md R91). -/
def s32Operand (q : Int) : Option Word :=
  if -(2 ^ 31) ≤ q ∧ q < 2 ^ 31 then some (BitVec.ofInt 32 q) else none

/-- A real value of a field with a scale, as the scaled integer operand `rha(x * s)` (R262). -/
def scaledOperand (x : ℚ) (scale : Nat) : Option Word := s32Operand (rha (x * scale))

/-- The expansion of a pseudo-instruction (R121); `none` where a scaled value is no `s32`, which the
command could not carry (DESIGN CHOICE, log entry 17). -/
def Pseudo.expand (l : CanLayout) : Pseudo → Option (List Instr)
  | .encAnalogV ch v => do
    let q ← scaledOperand v 100
    some [.lppEncAnalog ch q]
  | .encAccelV ch x y z => do
    let qx ← scaledOperand x 1000
    let qy ← scaledOperand y 1000
    let qz ← scaledOperand z 1000
    some [.lppEncAccel ch qx qy qz]
  | .encGpsV ch lat lon alt => do
    let qlat ← scaledOperand lat 10000
    let qlon ← scaledOperand lon 10000
    let qalt ← scaledOperand alt 100
    some [.lppEncGps ch qlat qlon qalt]
  | .encDigitalB ch b => some [.lppEncDigital ch (if b then 1 else 0)]
  | .radioTx payload => some [.radioTransmit payload]
  | .radioRestartRx => some [.radioStandby, .radioStartRx]
  | .canNormal => some [.canSetMode (l.normal.setWidth 8)]

end Sys2Proof
end

