-- ==== Sys2Proof/Safety.lean ====
section
/-! DEFINITION. What holds of a good state, and the terms in which statements speak of what a command
transacts on the bus. -/

namespace Sys2Proof

/-- The four type codes are distinct (43_codec.md R251). -/
def LppCodes.distinct (c : LppCodes) : Bool :=
  decide [c.digitalInput, c.analogInput, c.accelerometer, c.gps].Nodup

/-- A field lies within its register. -/
def Field.fits (f : Field) : Bool := decide (f.low + f.width ≤ 8)

/-- A framing can frame: no frame is empty (40_transport_and_control.md R131), and the value read stands
at a position the read frame has (R133). -/
def Framing.wf (f : Framing) : Bool :=
  decide (f.radio.write ≠ [] ∧ f.radio.readPosition < f.radio.read.length ∧
    f.can.write ≠ [] ∧ f.can.readPosition < f.can.read.length ∧
    f.canReset ≠ [] ∧ [] ∉ f.canRts)

/-- The radio's field positions lie within their registers (20_memory.md R62), and every coding rate,
spreading factor and power that the clamps let through has a code (41_radio.md R157 to R159). -/
def RadioLayout.wf (l : RadioLayout) : Bool :=
  l.mode.fits && l.bandwidth.fits && l.codingRate.fits && l.spreadingFactor.fits &&
    l.outputPower.fits && decide (l.codingRateCodes.length = 4 ∧
      l.spreadingFactorCodes.length = 7 ∧ l.powerCodes.length = 16)

/-- The CAN device's field positions lie within their registers (20_memory.md R64), and no mode code is
0b111, which stands for "no mode written" (10_state.md R27). -/
def CanLayout.wf (l : CanLayout) : Bool :=
  l.mode.fits && l.dlc.fits && l.std11.segments.all (·.field.fits) &&
    l.ext29.segments.all (·.field.fits) && !l.modeCodes.contains 0b111

/-- The addresses of the radio's map (20_memory.md R62). -/
def RadioMap.addresses (m : RadioMap) : List Byte :=
  [m.fifo, m.opMode, m.frfMsb, m.frfMid, m.frfLsb, m.paConfig, m.lna, m.fifoAddrPtr,
    m.fifoRxBaseAddr, m.fifoRxCurrentAddr, m.irqFlags, m.rxNbBytes, m.pktSnrValue, m.pktRssiValue,
    m.modemConfig1, m.modemConfig2, m.preambleMsb, m.preambleLsb, m.payloadLength, m.modemConfig3,
    m.detectOptimize, m.detectionThreshold, m.syncWord, m.version]

/-- The addresses of the CAN device's single registers (20_memory.md R64). -/
def CanMap.singles (c : CanMap) : List Nat :=
  [c.canctrl, c.cnf3, c.cnf2, c.cnf1, c.canintf].map BitVec.toNat

/-- The addresses of block `n` of the mailboxes or buffers that begin at `base`, not wrapped to a byte
(20_memory.md R64, 42_can.md R229). -/
def CanMap.block (c : CanMap) (base : Byte) (n : Nat) : List Nat :=
  ([c.sidh, c.sidl, c.eid8, c.eid0, c.dlc].map BitVec.toNat ++
    (List.range 8).map (c.data.toNat + ·)).map (base.toNat + c.stride.toNat * n + ·)

/-- Every address that a radio or a CAN command uses lies in its device's address space, so that none of
them goes out of range, as 20_memory.md R56 concludes; table P does not ask it (DEDUCED, log entry 20). -/
def Params.mapsFit (p : Params) : Bool :=
  p.radio.addresses.all (fun a => decide (a.toNat < 2 ^ p.radioAddrBits)) &&
    (p.can.singles ++ p.can.block p.can.txb0 p.canTxMailbox ++
      p.can.block p.can.rxb0 p.canRxBuffer).all fun a => decide (a < 2 ^ min p.canAddrBits 8)

/-- The constraints that table P and the rules it names put on the parameters (00_scope.md R7,
41_radio.md R154, R168, 43_codec.md R251, R253, 70_reset_and_hazards.md R334, R346), and those that make
the framing and the maps mean something: the addresses fit (log entry 20), and the instance has the
mailbox and the buffer it uses. That the default bandwidth code is a code of the table is not among them
(log entry 21). -/
def Params.wf (p : Params) : Bool :=
  decide (1 ≤ p.txPollBudget ∧ 1 ≤ p.rxPollIntervalMs ∧ 10 ≤ p.resetSettle ∧ 0 < p.radioXtalHz ∧
    -32512 ≤ p.rssiOffset ∧ p.rssiOffset ≤ 32768 ∧ p.bwTable ≠ [] ∧
    (p.bwTable.map Prod.fst).Pairwise (· < ·) ∧ p.maxPayload ≤ 255 ∧ p.encCap ≤ 255) &&
  p.lppCodes.distinct && p.framing.wf && p.radio.layout.wf && p.can.layout.wf && p.mapsFit &&
    decide (p.canTxMailbox < p.framing.canRts.length ∧ p.canRxBuffer < p.can.layout.rxFull.length)

/-- An event that is a transaction (40_transport_and_control.md R131). -/
def Event.isTxn : Event → Bool
  | .txn _ _ _ => true
  | _ => false

/-- An event that is a wait (70_reset_and_hazards.md R336). -/
def Event.isDelay : Event → Bool
  | .delay _ _ => true
  | _ => false

/-- The radio commands other than `RADIO_INIT`, with operands that pass their operand checks
(41_radio.md R150). -/
def Instr.radioGated (p : Params) : Instr → Bool
  | .radioTransmit payload => decide (0 < payload.length ∧ payload.length ≤ p.maxPayload)
  | .radioStartRx => true
  | .radioPollRx => true
  | .radioBlockingRx _ => true
  | .radioSleep => true
  | .radioStandby => true
  | .radioSetFrequency _ => true
  | .radioSetBandwidth _ => true
  | .radioSetLnaAgc => true
  | .radioSetTxPower _ => true
  | .radioSetSf _ => true
  | .radioSetCr _ => true
  | .radioSetPreamble _ => true
  | .radioSetSyncWord _ => true
  | .radioSetCrc crc => crc == 0 || crc == 1
  | _ => false

/-- The single-parameter configuration commands (41_radio.md R177 to R185), with a legal operand. -/
def Instr.radioSetting : Instr → Bool
  | .radioSetFrequency _ => true
  | .radioSetBandwidth _ => true
  | .radioSetLnaAgc => true
  | .radioSetTxPower _ => true
  | .radioSetSf _ => true
  | .radioSetCr _ => true
  | .radioSetPreamble _ => true
  | .radioSetSyncWord _ => true
  | .radioSetCrc crc => crc == 0 || crc == 1
  | _ => false

/-- The family of an instruction: the families of the command rules (files 40 to 43), and the two
kinds of rows that are no commands. -/
inductive InstrFamily where
  | transport
  | radio
  | can
  | codec
  | busFrame
  | element
  deriving DecidableEq, Repr

/-- The family of each instruction. -/
def Instr.family : Instr → InstrFamily
  | .busWrite _ _ _ => .transport
  | .busRead _ _ => .transport
  | .getStatus => .transport
  | .radioInit _ _ _ _ _ _ _ _ => .radio
  | .radioTransmit _ => .radio
  | .radioStartRx => .radio
  | .radioPollRx => .radio
  | .radioBlockingRx _ => .radio
  | .radioSleep => .radio
  | .radioStandby => .radio
  | .radioSetFrequency _ => .radio
  | .radioSetBandwidth _ => .radio
  | .radioSetLnaAgc => .radio
  | .radioSetTxPower _ => .radio
  | .radioSetSf _ => .radio
  | .radioSetCr _ => .radio
  | .radioSetPreamble _ => .radio
  | .radioSetSyncWord _ => .radio
  | .radioSetCrc _ => .radio
  | .canInit _ _ _ => .can
  | .canSetMode _ => .can
  | .canSend _ _ => .can
  | .canReceive => .can
  | .lppEncReset => .codec
  | .lppEncDigital _ _ => .codec
  | .lppEncAnalog _ _ => .codec
  | .lppEncAccel _ _ _ _ => .codec
  | .lppEncGps _ _ _ _ => .codec
  | .lppEncRead => .codec
  | .lppDecode _ => .codec
  | .busframeRadioWrite _ _ => .busFrame
  | .busframeRadioRead _ => .busFrame
  | .busframeCanWrite _ _ => .busFrame
  | .busframeCanRead _ => .busFrame
  | .busframeCanReset => .busFrame
  | .busframeCanRts _ => .busFrame
  | .lppDigitalInput _ _ => .element
  | .lppAnalogInput _ _ => .element
  | .lppAccelerometer _ _ _ _ => .element
  | .lppGps _ _ _ _ => .element

/-- The offsets of the registers of a mailbox or buffer that a frame of `dlc` data bytes occupies, in the
order of their accesses (42_can.md R229, R232, R233). -/
def CanMap.frameOffsets (c : CanMap) (m : CanIdMode) (dlc : Nat) : List Byte :=
  c.idOffsets m ++ c.dlc :: (List.range dlc).map fun j => c.data + BitVec.ofNat 8 j

end Sys2Proof

namespace Sys2Proof.Machine

open Sys2Proof

/-- What holds at every command boundary. -/
structure State.Good (s : State) : Prop where
  /-- The parameters meet their constraints. -/
  params : s.params.wf = true
  /-- Both selects are released (10_state.md R32). -/
  selects : s.csRadio = false ∧ s.csCan = false
  /-- The reset line is released and the LED has never been driven (R33). -/
  lines : s.resetLine = true ∧ s.ledLine = false
  /-- The encoder buffer is within its capacity (R30). -/
  encBuf : s.encBuf.length ≤ s.params.encCap
  /-- Bits 15:12 of the fault register are 0 (R31). -/
  faults : s.faults.extractLsb' 12 4 = 0
  /-- The last status is a code of table S (60_exceptions.md R300). -/
  lastStatus : s.lastStatus ∈ Status.all.map Status.code
  /-- The recorded CAN mode is one of the three codes or "none written" (R27). -/
  canMode : s.canMode ∈ s.params.can.layout.modeCodes ∨ s.canMode = 0b111
  /-- A CAN controller is ready only after a mode has been written (42_can.md R230). -/
  canReady : s.canLife = .ready → s.canMode ∈ s.params.can.layout.modeCodes
  /-- Before construction the radio is recorded asleep (41_radio.md R150, R170). -/
  radioUninit : s.radioLife = .uninit → s.radioState = .sleep
  /-- The hazard bit is set only after construction (R151). -/
  hazard : s.rwHazard = true → s.radioLife ≠ .uninit

/-- None of the next `n` transactions fails, whatever they shift out. -/
def State.answers (s : State) (n : Nat) : Prop :=
  ∀ k, k < n → ∀ dev out, s.answerAt k dev out ≠ .fail

/-- The state after a list of transactions, in order. -/
def State.transacted (s : State) (ts : List (Device × List Byte)) : State :=
  ts.foldl (fun s t => s.afterTxn t.1 t.2) s

/-- The transaction that writes a radio register of the map. -/
def State.wrRadio (s : State) (reg : RadioMap → Byte) (v : Byte) : Device × List Byte :=
  (.radio, s.params.framing.writeFrame .radio (reg s.params.radio) v)

/-- The transaction that reads a radio register of the map. -/
def State.rdRadio (s : State) (reg : RadioMap → Byte) : Device × List Byte :=
  (.radio, s.params.framing.readFrame .radio (reg s.params.radio))

/-- The value the `k`-th transaction from now on returns as a read of a radio register. -/
def State.radioAt (s : State) (k : Nat) (reg : RadioMap → Byte) : Byte :=
  s.readAt k .radio (reg s.params.radio)

/-- The transaction that writes a CAN register. -/
def State.wrCan (s : State) (addr v : Byte) : Device × List Byte :=
  (.can, s.params.framing.writeFrame .can addr v)

/-- The transaction that reads a CAN register. -/
def State.rdCan (s : State) (addr : Byte) : Device × List Byte :=
  (.can, s.params.framing.readFrame .can addr)

/-- The transaction of `SetMode(m)` (41_radio.md R152). -/
def State.wrMode (s : State) (m : RadioState) : Device × List Byte :=
  s.wrRadio RadioMap.opMode (opModeByte s.params.radio.layout m)

/-- The reset pulse of `RADIO_INIT`, where the reset line is present (41_radio.md R170). -/
def State.pulsed (s : State) : State :=
  if s.params.caps.hasReset then
    (((((s.setLine .reset false).logged (.pin .reset false)).logged
      (.delay .resetPulse s.params.resetPulse)).setLine .reset true).logged (.pin .reset true)).logged
      (.delay .resetSettle s.params.resetSettle)
  else s

/-- `n` reads of the radio's flag register with a wait between two of them (41_radio.md R171, R174). -/
def State.polled (w : Wait) (t : Nat) : Nat → State → State
  | 0, s => s
  | n + 1, s =>
    let u := s.transacted [s.rdRadio RadioMap.irqFlags]
    if n = 0 then u else State.polled w t n (u.logged (.delay w t))

/-! ## The transactions of the radio's register sequences (41_radio.md section 2)

Each list is the sequence's transactions in order. `k` is the index of its first one, from which the
index of its reads is counted. -/

/-- `SetFrequency(f)` (R153). -/
def State.frequencyTxns (s : State) (f : Nat) : List (Device × List Byte) :=
  let w := min (rneDiv (f * 2 ^ 19) s.params.radioXtalHz) (2 ^ 24 - 1)
  [s.wrRadio RadioMap.frfMsb (BitVec.ofNat 8 (w / 2 ^ 16)),
    s.wrRadio RadioMap.frfMid (BitVec.ofNat 8 (w / 2 ^ 8)),
    s.wrRadio RadioMap.frfLsb (BitVec.ofNat 8 w)]

/-- `SetBandwidth(bw)` (R155). -/
def State.bandwidthTxns (s : State) (k bw : Nat) : List (Device × List Byte) :=
  [s.rdRadio RadioMap.modemConfig1,
    s.wrRadio RadioMap.modemConfig1 (s.params.radio.layout.bandwidth.insert
      (s.radioAt k RadioMap.modemConfig1) ((selectBandwidth s.params bw).setWidth 8))]

/-- `SetLnaAgc()` (R156). -/
def State.lnaAgcTxns (s : State) (k : Nat) : List (Device × List Byte) :=
  [s.rdRadio RadioMap.lna,
    s.wrRadio RadioMap.lna (s.radioAt k RadioMap.lna ||| s.params.radio.layout.lnaBoost),
    s.wrRadio RadioMap.modemConfig3 s.params.radio.layout.agcOn]

/-- `SetTxPower(p)` (R157). -/
def State.txPowerTxns (s : State) (p : Int) : List (Device × List Byte) :=
  [s.wrRadio RadioMap.paConfig (s.params.radio.layout.outputPower.insert s.params.radio.layout.paFixed
    (s.params.radio.layout.powerCodes.getD (min (max p 2) 17 - 2).toNat 0))]

/-- `SetSpreadingFactor(s)` (R158). -/
def State.spreadingFactorTxns (s : State) (k : Nat) (sf : Int) : List (Device × List Byte) :=
  let l := s.params.radio.layout
  let q := min (max sf 6) 12
  [s.wrRadio RadioMap.detectOptimize (if q = 6 then l.detectOptimize6 else l.detectOptimize7),
    s.wrRadio RadioMap.detectionThreshold
      (if q = 6 then l.detectionThreshold6 else l.detectionThreshold7),
    s.rdRadio RadioMap.modemConfig2,
    s.wrRadio RadioMap.modemConfig2
      (l.spreadingFactor.insert (s.radioAt (k + 2) RadioMap.modemConfig2)
        (l.spreadingFactorCodes.getD (q - 6).toNat 0))]

/-- `SetCodingRate(c)` (R159). -/
def State.codingRateTxns (s : State) (k : Nat) (c : Int) : List (Device × List Byte) :=
  [s.rdRadio RadioMap.modemConfig1,
    s.wrRadio RadioMap.modemConfig1 (s.params.radio.layout.codingRate.insert
      (s.radioAt k RadioMap.modemConfig1)
      (s.params.radio.layout.codingRateCodes.getD (min (max c 5) 8 - 5).toNat 0))]

/-- `SetPreamble(n)` (R160). -/
def State.preambleTxns (s : State) (n : Nat) : List (Device × List Byte) :=
  [s.wrRadio RadioMap.preambleMsb (BitVec.ofNat 8 (min n 65535 / 2 ^ 8)),
    s.wrRadio RadioMap.preambleLsb (BitVec.ofNat 8 (min n 65535))]

/-- `SetCrc(e)` for a flag operand, 1 to turn the CRC on (R162). -/
def State.crcTxns (s : State) (k : Nat) (crc : Byte) : List (Device × List Byte) :=
  [s.rdRadio RadioMap.modemConfig2,
    s.wrRadio RadioMap.modemConfig2
      (if crc = 1 then s.radioAt k RadioMap.modemConfig2 ||| bitByte s.params.radio.layout.crcOn
        else s.radioAt k RadioMap.modemConfig2 &&& ~~~bitByte s.params.radio.layout.crcOn)]

/-- `ResetFifoRx()` and the mode write to ReceivingContinuous (R164, R165, R172). -/
def State.startRxTxns (s : State) : List (Device × List Byte) :=
  [s.wrRadio RadioMap.fifoRxBaseAddr s.params.fifoBase,
    s.wrRadio RadioMap.fifoAddrPtr s.params.fifoBase, s.wrMode .receivingContinuous]

/-- The length `ReadPacket()` reads when its first transaction is the `k`-th (R166). -/
def State.packetLength (s : State) (k : Nat) : Byte := s.radioAt k RadioMap.rxNbBytes

/-- The bytes `ReadPacket()` reads when its first transaction is the `k`-th (R166). -/
def State.packetBytes (s : State) (k : Nat) : List Byte :=
  (List.range (s.packetLength k).toNat).map fun j => s.radioAt (k + 3 + j) RadioMap.fifo

/-- `ReadPacket()` (R166). -/
def State.packetTxns (s : State) (k : Nat) : List (Device × List Byte) :=
  [s.rdRadio RadioMap.rxNbBytes, s.rdRadio RadioMap.fifoRxCurrentAddr,
    s.wrRadio RadioMap.fifoAddrPtr (s.radioAt (k + 1) RadioMap.fifoRxCurrentAddr)] ++
    List.replicate (s.packetLength k).toNat (s.rdRadio RadioMap.fifo)

/-! ## What stays the same -/

/-- The CoreState fields that no command but a radio command writes are the same. -/
def State.sameRadio (s t : State) : Prop :=
  t.radioState = s.radioState ∧ t.radioLife = s.radioLife ∧ t.rwHazard = s.rwHazard ∧
    t.resetLine = s.resetLine

/-- The CoreState fields that no command but a CAN command writes are the same. -/
def State.sameCan (s t : State) : Prop := t.canLife = s.canLife ∧ t.canMode = s.canMode

/-- Nothing of the bus, the lines and the waits has changed: no transaction, no event, no answer
used. -/
def State.sameBus (s t : State) : Prop :=
  t.trace = s.trace ∧ t.replies = s.replies ∧ t.draws = s.draws ∧ t.csRadio = s.csRadio ∧
    t.csCan = s.csCan

end Sys2Proof.Machine
end

