-- ==== Sys2Proof/Certificates/Slice0/Obligations.lean ====
section
/-! DEFINITION. The statements about this model, for the provers. `s.answers n` says that none of the
next `n` transactions fails; a device's answers are otherwise free (20_memory.md R57). Framing, register
maps, field positions and mode codes are the instance's parameters (00_scope.md R7); a statement that
speaks of the reference profile's names it as a premise. -/

open Sys2Proof Sys2Proof.Machine

/-! ## Encoding -/

/-- Every instruction that fits its encoding decodes from it, whatever its operands (30_encoding.md
sections 1, 3 and 4); the type codes are distinct (43_codec.md R251). -/
def Obligations.DecodeInvertsEncode : Prop :=
  ∀ (codes : LppCodes) (i : Instr), codes.distinct = true → i.fits = true →
    decodeInput codes (encode codes i) = some (.ok i)

/-- Whatever decodes is the encoding of what it decodes to, so two different inputs never decode to one
instruction (30_encoding.md sections 1, 3 and 4). -/
def Obligations.EncodeInvertsDecode : Prop :=
  ∀ (codes : LppCodes) (x : Input) (i : Instr), decodeInput codes x = some (.ok i) →
    i.fits = true ∧ encode codes i = x

/-- Words written out from the spec's encodings and from its own examples decode to the instructions they
stand for: the examples of R137, R138, R170, R174, R180, R230, R232 and R257, the element of R258, a decode
frame of 95_test_vectors.md section 2, the bus frames of R110 and R115. -/
def Obligations.SpecWordsDecode : Prop :=
  decodeCommand [0x01, 0x00, 0x39, 0x34] = .ok (.busWrite 0 0x39 0x34) ∧
  decodeCommand [0x02, 0x01, 0x2C] = .ok (.busRead 1 0x2C) ∧
  decodeCommand [0x14, 0x00, 0x00, 0x00, 0x19] = .ok (.radioBlockingRx 25) ∧
  decodeCommand [0x1A, 0xFF, 0xFF, 0xFF, 0xFB] = .ok (.radioSetTxPower (BitVec.ofInt 32 (-5))) ∧
  decodeCommand [0x10, 0x33, 0xBC, 0xA1, 0x00, 0x00, 0x01, 0xE8, 0x48, 0x00, 0x00, 0x00, 0x07, 0x00,
      0x00, 0x00, 0x05, 0x00, 0x00, 0x00, 0x08, 0x12, 0x00, 0x00, 0x00, 0x11, 0x01] =
    .ok (.radioInit 868000000 125000 7 5 8 0x12 17 1) ∧
  decodeCommand [0x20, 0x00, 0x7A, 0x12, 0x00, 0x00, 0x07, 0xA1, 0x20, 0x00] =
    .ok (.canInit 8000000 500000 0) ∧
  decodeCommand [0x22, 0x00, 0x00, 0x01, 0x23, 0x04, 0x11, 0x22, 0x33, 0x44] =
    .ok (.canSend 0x123 [0x11, 0x22, 0x33, 0x44]) ∧
  decodeCommand [0x33, 0x03, 0xFF, 0xFF, 0xD9, 0xAE, 0x00, 0x00, 0x00, 0x00, 0x00, 0x00, 0x03, 0xE8] =
    .ok (.lppEncAccel 3 (BitVec.ofInt 32 (-9810)) 0 1000) ∧
  decodeCommand [0x38, 0x00, 0x03, 0x05, 0x00, 0xFF] = .ok (.lppDecode [0x05, 0x00, 0xFF]) ∧
  decodeBusFrame .radio [0xB9, 0x34] = .ok (.busframeRadioWrite 0x39 0x34) ∧
  decodeBusFrame .can [0x81] = .ok (.busframeCanRts 1) ∧
  decodeElement .reference [0x04, 0x88, 0x07, 0x83, 0x42, 0x01, 0x11, 0x70, 0x00, 0x00, 0x00] =
    .ok (.lppGps 4 492354 70000 0)

/-- A frame that starts with a reserved opcode ends ILLEGAL_COMMAND, and nothing else changes but the
bookkeeping (30_encoding.md R94). -/
def Obligations.ReservedOpcodesRefused : Prop :=
  ∀ (s : State) (op : Byte) (args : List Byte) (rest : List Input),
    (op = 0x00 ∨ (0x04 ≤ op ∧ op ≤ 0x0F) ∨ (0x24 ≤ op ∧ op ≤ 0x2F) ∨ op = 0x36 ∨ op = 0x37 ∨
      0x39 ≤ op) →
    s.inbox = .command (op :: args) :: rest →
    step s = .next { s with
      inbox := rest
      lastStatus := 0x18
      faults := s.faults ||| 0x0100
      outbox := s.outbox ++ [.result 0x18 []] }

/-- A frame whose length is not the one its row of table O gives ends FRAME_ERROR, an empty frame too;
a frame of the right length is run (30_encoding.md R93). A length operand the frame is too short to hold
counts as 0 in `FrameLength.of`, so that a frame shorter than the fixed part of its row never has the
length computed. -/
def Obligations.FrameLengthRule : Prop :=
  ∀ (s : State) (f : List Byte) (rest : List Input), s.inbox = .command f :: rest →
    let refused : State := { s with
      inbox := rest
      lastStatus := 0x1B
      faults := s.faults ||| 0x0800
      outbox := s.outbox ++ [.result 0x1B []] }
    (f = [] → step s = .next refused) ∧
    (∀ op args l, f = op :: args → tableO op.toNat = some l → f.length ≠ l.of f →
      step s = .next refused) ∧
    (∀ op args l, f = op :: args → tableO op.toNat = some l → f.length = l.of f →
      ∃ i, decodeCommand f = .ok i ∧ step s = exec i { s with inbox := rest })

/-! ## Steps and reset -/

/-- A step whose first input decodes to an instruction is exec of that instruction, in the state from
which that input alone has been taken. For a command that is 00_scope.md R5 and 60_exceptions.md R313; that
the inbox holds what the host hands in, and that bus frames and payload elements run as instructions of
their own, is the model's choice (log entries 7, 8 and 9). -/
def Obligations.StepRunsDecodedInstruction : Prop :=
  ∀ (s : State) (x : Input) (rest : List Input) (i : Instr), s.inbox = x :: rest →
    decodeInput s.params.lppCodes x = some (.ok i) → step s = exec i { s with inbox := rest }

/-- With nothing handed in, the core waits and nothing changes (70_reset_and_hazards.md section 1). That
a wait is a step is the model's choice (log entry 7). -/
def Obligations.IdleStepWaits : Prop :=
  ∀ s : State, s.inbox = [] → step s = .next s

/-- The core's reset sets every CoreState field to its reset value and makes no transaction, and no
other step clears rw_hazard, a fault bit or radio_life = Failed (70_reset_and_hazards.md R330). That the
reset stands in the inbox is the model's choice (log entry 7). -/
def Obligations.ResetRule : Prop :=
  (∀ (s : State) (rest : List Input), s.inbox = .coreReset :: rest → ∃ t, step s = .next t ∧
    t.radioState = .sleep ∧ t.radioLife = .uninit ∧ t.canLife = .uninit ∧ t.canMode = 0b111 ∧
    t.rwHazard = false ∧ t.lastStatus = 0x00 ∧ t.encBuf = [] ∧ t.faults = 0x0000 ∧
    t.csRadio = false ∧ t.csCan = false ∧ t.resetLine = true ∧ t.ledLine = false ∧
    t.params = s.params ∧ t.inbox = rest ∧ t.outbox = s.outbox ∧ t.trace = s.trace ∧
    t.replies = s.replies ∧ t.draws = s.draws) ∧
  (∀ r : State, r = State.reset →
    r.radioState = .sleep ∧ r.radioLife = .uninit ∧ r.canLife = .uninit ∧ r.canMode = 0b111 ∧
    r.rwHazard = false ∧ r.lastStatus = 0x00 ∧ r.encBuf = [] ∧ r.faults = 0x0000 ∧
    r.csRadio = false ∧ r.csCan = false ∧ r.resetLine = true ∧ r.ledLine = false) ∧
  (∀ s t : State, (∀ rest, s.inbox ≠ .coreReset :: rest) → step s = .next t →
    (s.rwHazard = true → t.rwHazard = true) ∧ s.faults &&& t.faults = s.faults ∧
    (s.radioLife = .failed → t.radioLife = .failed))

/-! ## Invariants of every step -/

/-- Every step keeps a good state good: parameters within their constraints, selects released, lines
at rest, the encoder buffer within its capacity, reserved fault bits 0, a status code of table S, a legal
CAN mode record, a radio recorded asleep before construction, no hazard before construction. -/
def Obligations.StepKeepsGood : Prop :=
  ∀ s t : State, s.Good → step s = .next t → t.Good

/-- The state after reset is good. -/
def Obligations.ResetIsGood : Prop := State.reset.Good

/-- No step writes a parameter (00_scope.md R8). -/
def Obligations.ParametersFixed : Prop :=
  ∀ s t : State, step s = .next t → t.params = s.params

/-- A step only appends to what was observed and answered, at most one answer, takes at most one input,
and uses one answer of the devices for every transaction it records (40_transport_and_control.md
section 1; the lists are the model's own, log entries 4, 7 and 12). -/
def Obligations.ObservationOnlyGrows : Prop :=
  ∀ s t : State, step s = .next t → ∃ es os, t.trace = s.trace ++ es ∧ t.outbox = s.outbox ++ os ∧
    os.length ≤ 1 ∧ t.inbox = s.inbox.tail ∧ t.draws = s.draws + (es.filter Event.isTxn).length ∧
    t.replies = s.replies.drop (es.filter Event.isTxn).length

/-- Every command frame ends with exactly one status, in its result frame, with the bookkeeping of
EndCommand: last_status unless the command is GET_STATUS (the frame 03), and the fault bit of a fault
code (60_exceptions.md R305). -/
def Obligations.EndBookkeeping : Prop :=
  ∀ (s : State) (f : List Byte) (rest : List Input), s.inbox = .command f :: rest →
    ∃ (t : State) (st : Status) (data : List Byte), step s = .next t ∧
      t.outbox = s.outbox ++ [.result st.code data] ∧ (st ≠ .ok → data = []) ∧
      t.lastStatus = (if f = [0x03] then s.lastStatus else st.code) ∧
      t.faults = (if 0x10 ≤ st.code.toNat then s.faults ||| (1 <<< (st.code.toNat - 0x10))
        else s.faults)

/-- One transaction: the select is asserted alone and released on every outcome, as many bytes come in
as go out, the event is recorded, a failure raises BUS_IO_ERROR, and nothing else changes
(40_transport_and_control.md section 1, 30_encoding.md section 3). The answer is a given one where the
model's list of them (log entry 4) has one. -/
def Obligations.TransactionEffect : Prop :=
  ∀ (s : State) (dev : Device) (out : List Byte), s.csRadio = false → s.csCan = false →
    ((s.setSelect dev true).csRadio, (s.setSelect dev true).csCan) =
      (match dev with | .radio => (true, false) | .can => (false, true)) ∧
    (∀ t : State, t = { s with
        trace := s.trace ++ [.txn dev out (s.receivedAt 0 dev out)]
        replies := s.replies.tail
        draws := s.draws + 1 } →
      (∀ ins, s.receivedAt 0 dev out = some ins →
        ins.length = out.length ∧ txn dev out s = .ok ins t) ∧
      (s.receivedAt 0 dev out = none → txn dev out s = .error .busIoError t)) ∧
    (∀ as, s.replies = .fail :: as → s.receivedAt 0 dev out = none) ∧
    (∀ ins as, s.replies = .shift ins :: as → ins.length = out.length →
      s.receivedAt 0 dev out = some ins)

/-- A command ends BUS_IO_ERROR exactly when a transaction of it failed, and the failed transaction is
the last event the command adds: nothing is retried and no later step happens
(40_transport_and_control.md section 1, 60_exceptions.md section 6). -/
def Obligations.FailedTransactionEndsCommand : Prop :=
  ∀ (s t : State) (f : List Byte) (rest : List Input) (es : List Event),
    s.inbox = .command f :: rest → step s = .next t → t.trace = s.trace ++ es →
    ((∃ dev out, .txn dev out none ∈ es) ↔ t.outbox = s.outbox ++ [.result 0x11 []]) ∧
    ∀ dev out before after, es = before ++ .txn dev out none :: after → after = []

/-- Radio commands leave the CAN record and the encoder buffer alone, CAN commands the radio record and
the encoder buffer, codec commands both records and the bus, transport commands all three; bus frames
and elements run on their own change no CoreState field but the selects (files 40 to 43; for the last
two kinds log entries 8 and 9). -/
def Obligations.FamiliesIndependent : Prop :=
  ∀ (s t : State) (i : Instr), exec i s = .next t →
    t.ledLine = s.ledLine ∧
    match i.family with
    | .transport => s.sameRadio t ∧ s.sameCan t ∧ t.encBuf = s.encBuf
    | .radio => s.sameCan t ∧ t.encBuf = s.encBuf
    | .can => s.sameRadio t ∧ t.encBuf = s.encBuf
    | .codec => s.sameRadio t ∧ s.sameCan t ∧ s.sameBus t
    | .busFrame => s.sameRadio t ∧ s.sameCan t ∧ t.encBuf = s.encBuf ∧
        t.lastStatus = s.lastStatus ∧ t.faults = s.faults ∧ t.outbox = s.outbox
    | .element => s.sameRadio t ∧ s.sameCan t ∧ s.sameBus t ∧ t.encBuf = s.encBuf ∧
        t.lastStatus = s.lastStatus ∧ t.faults = s.faults

/-- The blocking commands make a bounded number of transactions, and RADIO_POLL_RX and CAN_RECEIVE
never wait (70_reset_and_hazards.md section 4, 41_radio.md section 5). -/
def Obligations.BlockingIsBounded : Prop :=
  (∀ (s t : State) (payload : List Byte), exec (.radioTransmit payload) s = .next t →
    t.draws ≤ s.draws + payload.length + s.params.txPollBudget + 5) ∧
  (∀ (s t : State) (ms : Word), exec (.radioBlockingRx ms) s = .next t →
    t.draws ≤ s.draws + ms.toNat / s.params.rxPollIntervalMs + 264) ∧
  (∀ (s t : State) (i : Instr) (es : List Event), i = .radioPollRx ∨ i = .canReceive →
    exec i s = .next t → t.trace = s.trace ++ es →
    (es.any Event.isDelay) = false ∧ t.draws ≤ s.draws + 265)

/-! ## Gates and refusals -/

/-- Every radio command but RADIO_INIT is refused, before any transaction, DEVICE_NOT_FOUND in Failed and
NOT_INITIALIZED in Uninit; RADIO_INIT makes only the first check (41_radio.md R150). -/
def Obligations.RadioGateRule : Prop :=
  (∀ (s : State) (i : Instr), i.radioGated s.params = true →
    (s.radioLife = .failed → exec i s = .next (s.ended .deviceNotFound [])) ∧
    (s.radioLife = .uninit → exec i s = .next (s.ended .notInitialized []))) ∧
  (∀ (s : State) (freq bw sf cr preamble : Word) (sync : Byte) (txpow : Word) (crc : Byte),
    crc = 0 ∨ crc = 1 →
    (s.radioLife = .failed → exec (.radioInit freq bw sf cr preamble sync txpow crc) s =
      .next (s.ended .deviceNotFound [])) ∧
    (s.radioLife ≠ .failed → ∃ t, exec (.radioInit freq bw sf cr preamble sync txpow crc) s =
      .next t ∧ s.draws < t.draws))

/-- Every CAN command but CAN_INIT is refused NOT_INITIALIZED unless the controller is Ready, after its
operand checks and before any transaction (42_can.md R220). -/
def Obligations.CanGateRule : Prop :=
  ∀ s : State, s.canLife ≠ .ready →
    (∀ code ∈ s.params.can.layout.modeCodes,
      exec (.canSetMode (code.setWidth 8)) s = .next (s.ended .notInitialized [])) ∧
    (∀ (id : Word) (data : List Byte), canIdLegal s.params.canIdMode id = true → data.length ≤ 8 →
      exec (.canSend id data) s = .next (s.ended .notInitialized [])) ∧
    exec .canReceive s = .next (s.ended .notInitialized [])

/-- Reserved operand values end the command ILLEGAL_OPERAND before any transaction, whatever the
lifecycle and the state (30_encoding.md R95). -/
def Obligations.ReservedOperandsRefused : Prop :=
  ∀ s : State,
    (∀ dev addr val : Byte, dev ≠ 0 → dev ≠ 1 →
      exec (.busWrite dev addr val) s = .next (s.ended .illegalOperand []) ∧
      exec (.busRead dev addr) s = .next (s.ended .illegalOperand [])) ∧
    (∀ crc : Byte, crc &&& 0xFE ≠ 0 →
      (∀ freq bw sf cr preamble sync txpow,
        exec (.radioInit freq bw sf cr preamble sync txpow crc) s =
          .next (s.ended .illegalOperand [])) ∧
      exec (.radioSetCrc crc) s = .next (s.ended .illegalOperand [])) ∧
    (∀ mode : Byte, mode &&& 0xF8 ≠ 0 ∨
        mode.setWidth 3 ∉ s.params.can.layout.modeCodes →
      (∀ xtal bitrate, exec (.canInit xtal bitrate mode) s = .next (s.ended .illegalOperand [])) ∧
      exec (.canSetMode mode) s = .next (s.ended .illegalOperand [])) ∧
    (∀ (id : Word) (data : List Byte),
      (s.params.canIdMode = .std11 ∧ 2 ^ 11 ≤ id.toNat) ∨
        (s.params.canIdMode = .ext29 ∧ 2 ^ 29 ≤ id.toNat) →
      exec (.canSend id data) s = .next (s.ended .illegalOperand []))

/-- LENGTH_ERROR for a radio payload that is empty or too long and for a CAN frame of more than eight
bytes, before the gate (41_radio.md section 5, 42_can.md section 2, 60_exceptions.md section 2). -/
def Obligations.LengthErrors : Prop :=
  ∀ s : State,
    (∀ payload : List Byte, payload.length = 0 ∨ s.params.maxPayload < payload.length →
      exec (.radioTransmit payload) s = .next (s.ended .lengthError [])) ∧
    (∀ (id : Word) (data : List Byte), canIdLegal s.params.canIdMode id = true →
      8 < data.length → exec (.canSend id data) s = .next (s.ended .lengthError []))

/-- The radio state machine's table, on a Ready radio and without a bus error (41_radio.md section 3); what
a bus error leaves is `Obligations.BusErrorKeepsRecords`. -/
def Obligations.RadioStateTable : Prop :=
  ∀ (s t : State) (i : Instr), s.radioLife = .ready → exec i s = .next t → t.lastStatus ≠ 0x11 →
    (∀ payload : List Byte, i = .radioTransmit payload → 0 < payload.length →
      payload.length ≤ s.params.maxPayload →
      if s.radioState = .standby then t.radioState = .standby else t = s.ended .stateError []) ∧
    (i = .radioStartRx →
      if s.radioState = .standby then t.radioState = .receivingContinuous
      else t = s.ended .stateError []) ∧
    (i = .radioPollRx →
      if s.radioState = .receivingContinuous then t.radioState = .receivingContinuous
      else t = s.ended .stateError []) ∧
    (∀ ms, i = .radioBlockingRx ms →
      if s.radioState = .standby then t.radioState = .standby else t = s.ended .stateError []) ∧
    (i = .radioSleep → t.radioState = .sleep) ∧
    (i = .radioStandby → t.radioState = .standby) ∧
    (i.radioSetting = true → t.radioState = s.radioState) ∧
    (∀ freq bw sf cr preamble sync txpow crc,
      i = .radioInit freq bw sf cr preamble sync txpow crc → t.lastStatus = 0x00 →
      t.radioState = .standby)

/-- HazardCheck: a configuration command sets rw_hazard when the recorded mode is neither Sleep nor
Standby, and then goes on: it forces no mode and is not refused (41_radio.md R151). -/
def Obligations.HazardRule : Prop :=
  ∀ (s t : State) (i : Instr), i.radioSetting = true → s.radioLife = .ready → exec i s = .next t →
    (t.rwHazard = true ↔
      s.rwHazard = true ∨ (s.radioState ≠ .sleep ∧ s.radioState ≠ .standby)) ∧
    t.radioState = s.radioState ∧ s.draws < t.draws ∧ (t.lastStatus = 0x00 ∨ t.lastStatus = 0x11)

/-! ## Transport and control -/

/-- BUS_WRITE, whole: its frame, its two checks, its one transaction with the write frame of the
instance's framing (in the reference framing the bytes of 30_encoding.md R110 and R112), and no record
updated (40_transport_and_control.md R132, R137). -/
def Obligations.BusWriteRule : Prop :=
  ∀ (s : State) (addr val : Byte),
    (∀ dev, decodeCommand [0x01, dev, addr, val] = .ok (.busWrite dev addr val)) ∧
    (∀ dev, dev ≠ 0 → dev ≠ 1 →
      exec (.busWrite dev addr val) s = .next (s.ended .illegalOperand [])) ∧
    (∀ (dev : Byte) (d : Device) (frame : List Byte) (bits : Nat),
      (dev = 0 ∧ d = .radio ∧ bits = s.params.radioAddrBits) ∨
        (dev = 1 ∧ d = .can ∧ bits = s.params.canAddrBits) →
      frame = s.params.framing.writeFrame d addr val →
      (s.params.framing = .reference →
        frame = (match d with
          | .radio => [0x80 ||| (addr &&& 0x7F), val]
          | .can => [0x02, addr, val])) ∧
      (2 ^ bits ≤ addr.toNat → exec (.busWrite dev addr val) s = .next (s.ended .addressRange [])) ∧
      (addr.toNat < 2 ^ bits → s.answerAt 0 d frame ≠ .fail →
        exec (.busWrite dev addr val) s = .next ((s.afterTxn d frame).ended .ok [])) ∧
      (addr.toNat < 2 ^ bits → s.answerAt 0 d frame = .fail →
        exec (.busWrite dev addr val) s = .next ((s.afterTxn d frame).ended .busIoError [])))

/-- BUS_READ, whole: the byte answered is the one the device shifts in at the position the instance's
framing names, where its read frame has that position (in the reference framing the bytes and positions
of 30_encoding.md R111 and R113; 40_transport_and_control.md R133, R138). -/
def Obligations.BusReadRule : Prop :=
  ∀ (s : State) (addr : Byte),
    (∀ dev, decodeCommand [0x02, dev, addr] = .ok (.busRead dev addr)) ∧
    (∀ dev, dev ≠ 0 → dev ≠ 1 → exec (.busRead dev addr) s = .next (s.ended .illegalOperand [])) ∧
    (∀ (dev : Byte) (d : Device) (frame : List Byte) (bits position : Nat),
      (dev = 0 ∧ d = .radio ∧ bits = s.params.radioAddrBits) ∨
        (dev = 1 ∧ d = .can ∧ bits = s.params.canAddrBits) →
      frame = s.params.framing.readFrame d addr → position = s.params.framing.readPosition d →
      (s.params.framing = .reference →
        (frame, position) = (match d with
          | .radio => ([addr &&& 0x7F, 0x00], 1)
          | .can => ([0x03, addr, 0x00], 2))) ∧
      (2 ^ bits ≤ addr.toNat → exec (.busRead dev addr) s = .next (s.ended .addressRange [])) ∧
      (∀ ins, addr.toNat < 2 ^ bits → position < frame.length → s.receivedAt 0 d frame = some ins →
        ∃ v, ins[position]? = some v ∧
          exec (.busRead dev addr) s = .next ((s.afterTxn d frame).ended .ok [v])) ∧
      (addr.toNat < 2 ^ bits → s.receivedAt 0 d frame = none →
        exec (.busRead dev addr) s = .next ((s.afterTxn d frame).ended .busIoError [])))

/-- GET_STATUS, whole: STATUS and the fault register big-endian, and nothing written; right after reset
with all capabilities absent it answers 00 00 00 01 C0 00 00 (40_transport_and_control.md R139). -/
def Obligations.GetStatusRule : Prop :=
  decodeCommand [0x03] = .ok .getStatus ∧
  (∀ s : State, exec .getStatus s = .next { s with
    outbox := s.outbox ++ [.result 0x00
      [s.status.extractLsb' 24 8, s.status.extractLsb' 16 8, s.status.extractLsb' 8 8,
        s.status.extractLsb' 0 8, s.faults.extractLsb' 8 8, s.faults.extractLsb' 0 8]] }) ∧
  (∀ (s : State) (p : Params), p.caps = ⟨false, false, false⟩ → p.canIdMode = .std11 →
    s = { State.reset with params := p } →
    exec .getStatus s = .next { s with
      outbox := [.result 0x00 [0x00, 0x00, 0x01, 0xC0, 0x00, 0x00]] })

/-- The fields of the status word, bit by bit (10_state.md section 2). -/
def Obligations.StatusWordFields : Prop :=
  ∀ s : State,
    s.status.extractLsb' 0 2 = (match s.radioState with
      | .sleep => 0#2 | .standby => 1#2 | .transmitting => 2#2 | .receivingContinuous => 3#2) ∧
    s.status.extractLsb' 2 2 = (match s.radioLife with
      | .uninit => 0#2 | .ready => 1#2 | .failed => 2#2) ∧
    s.status.extractLsb' 4 2 = (match s.canLife with
      | .uninit => 0#2 | .ready => 1#2 | .unconfigured => 2#2) ∧
    s.status.extractLsb' 6 3 = s.canMode ∧
    s.status.getLsbD 9 = s.rwHazard ∧
    s.status.getLsbD 10 = (s.params.canIdMode == .ext29) ∧
    s.status.getLsbD 11 = s.params.caps.hasReset ∧
    s.status.getLsbD 12 = s.params.caps.hasLed ∧
    s.status.getLsbD 13 = s.params.caps.hasInterruptPin ∧
    s.status.extractLsb' 14 2 = 0#2 ∧
    s.status.extractLsb' 16 8 = s.lastStatus ∧
    (s.encBuf.length < 256 → (s.status.extractLsb' 24 8).toNat = s.encBuf.length)

/-! ## Radio commands -/

/-- RADIO_INIT from any lifecycle but Failed, with the identity byte as expected: the reset pulse, the 23
transactions in the source's order, and a Ready radio in Standby (41_radio.md section 5). -/
def Obligations.RadioInitCompletes : Prop :=
  ∀ (s : State) (freq bw sf cr preamble : Word) (sync : Byte) (txpow : Word) (crc : Byte),
    crc = 0 ∨ crc = 1 → s.radioLife ≠ .failed → s.answers 23 →
    s.radioAt 0 RadioMap.version = s.params.radioIdValue →
    exec (.radioInit freq bw sf cr preamble sync txpow crc) s =
      .next ((((s.pulsed.transacted (
        [s.rdRadio RadioMap.version, s.wrMode .sleep] ++
        s.frequencyTxns freq.toNat ++ s.bandwidthTxns 5 bw.toNat ++ s.lnaAgcTxns 7 ++
        s.txPowerTxns txpow.toInt ++ s.spreadingFactorTxns 11 sf.toInt ++
        s.codingRateTxns 15 cr.toInt ++ s.preambleTxns preamble.toNat ++
        [s.wrRadio RadioMap.syncWord sync] ++ s.crcTxns 20 crc ++
        [s.wrMode .standby])).setRadioState .standby).setRadioLife .ready).ended .ok [])

/-- RADIO_INIT with another identity byte: one transaction, and a Failed radio (41_radio.md section 5,
60_exceptions.md section 6). -/
def Obligations.RadioInitIdentityMismatch : Prop :=
  ∀ (s : State) (freq bw sf cr preamble : Word) (sync : Byte) (txpow : Word) (crc : Byte),
    crc = 0 ∨ crc = 1 → s.radioLife ≠ .failed → s.answers 1 →
    s.radioAt 0 RadioMap.version ≠ s.params.radioIdValue →
    exec (.radioInit freq bw sf cr preamble sync txpow crc) s =
      .next (((s.pulsed.transacted [s.rdRadio RadioMap.version]).setRadioLife .failed).ended
        .deviceNotFound [])

/-- RADIO_TRANSMIT from Standby: the FIFO pointer, the payload byte by byte, the length, the mode; then
flag reads with waits between them. Done at the first read with TxDone set, within the budget, or
TIMEOUT after the whole budget, with the clear write on both and a Standby write on TIMEOUT only
(41_radio.md section 5). -/
def Obligations.TransmitCompletes : Prop :=
  ∀ (s : State) (payload : List Byte), 0 < payload.length → payload.length ≤ s.params.maxPayload →
    s.radioLife = .ready → s.radioState = .standby →
    let n := payload.length + 3
    let sent := (s.transacted (s.wrRadio RadioMap.fifoAddrPtr s.params.fifoBase ::
      payload.map (s.wrRadio RadioMap.fifo) ++
      [s.wrRadio RadioMap.payloadLength (BitVec.ofNat 8 payload.length),
        s.wrMode .transmitting])).setRadioState .transmitting
    let l := s.params.radio.layout
    let seen := fun j => (s.radioAt (n + j) RadioMap.irqFlags).getLsbD l.txDone.val
    (∀ k, k < s.params.txPollBudget → (∀ j, j < k → seen j = false) → seen k = true →
      s.answers (n + k + 2) →
      exec (.radioTransmit payload) s =
        .next ((((State.polled .txPoll s.params.txPollDelay (k + 1) sent).transacted
          [s.wrRadio RadioMap.irqFlags l.clearTxDone]).setRadioState .standby).ended .ok [])) ∧
    ((∀ j, j < s.params.txPollBudget → seen j = false) → s.answers (n + s.params.txPollBudget + 2) →
      exec (.radioTransmit payload) s =
        .next ((((State.polled .txPoll s.params.txPollDelay s.params.txPollBudget sent).transacted
          [s.wrRadio RadioMap.irqFlags l.clearTxDone, s.wrMode .standby]).setRadioState
            .standby).ended .timeout []))

/-- RADIO_START_RX from Standby (41_radio.md section 5). -/
def Obligations.StartRxCompletes : Prop :=
  ∀ s : State, s.radioLife = .ready → s.radioState = .standby → s.answers 3 →
    exec .radioStartRx s =
      .next (((s.transacted s.startRxTxns).setRadioState .receivingContinuous).ended .ok [])

/-- RADIO_POLL_RX while receiving, in its three outcomes: no packet, a packet with a CRC error, a packet
with its link metrics (41_radio.md sections 4 and 5). -/
def Obligations.PollRxCompletes : Prop :=
  ∀ s : State, s.radioLife = .ready → s.radioState = .receivingContinuous →
    let f := s.radioAt 0 RadioMap.irqFlags
    let l := s.params.radio.layout
    (f.getLsbD l.rxDone.val = false → s.answers 1 →
      exec .radioPollRx s = .next ((s.transacted [s.rdRadio RadioMap.irqFlags]).ended .noData [])) ∧
    (f.getLsbD l.rxDone.val = true → f.getLsbD l.crcError.val = true → s.answers 5 →
      exec .radioPollRx s = .next ((s.transacted ([s.rdRadio RadioMap.irqFlags,
        s.wrRadio RadioMap.irqFlags f] ++ s.startRxTxns)).ended .crcDropped [])) ∧
    (f.getLsbD l.rxDone.val = true → f.getLsbD l.crcError.val = false →
      s.answers (10 + (s.packetLength 3).toNat) →
      exec .radioPollRx s = .next ((s.transacted ([s.rdRadio RadioMap.irqFlags,
          s.rdRadio RadioMap.pktRssiValue, s.rdRadio RadioMap.pktSnrValue] ++ s.packetTxns 3 ++
          [s.wrRadio RadioMap.irqFlags f] ++ s.startRxTxns)).ended .ok
        (beInt 2 ((s.radioAt 1 RadioMap.pktRssiValue).toNat - s.params.rssiOffset) ++
          [s.radioAt 2 RadioMap.pktSnrValue] ++ s.packetLength 3 :: s.packetBytes 3)))

/-- RADIO_BLOCKING_RX from Standby: at most timeout div interval + 1 flag reads with waits between them.
The first read with RxDone set decides between CRC_DROPPED and the packet; with none it ends TIMEOUT. It
always ends in Standby (41_radio.md section 5). -/
def Obligations.BlockingRxCompletes : Prop :=
  ∀ (s : State) (ms : Word), s.radioLife = .ready → s.radioState = .standby →
    let polls := ms.toNat / s.params.rxPollIntervalMs + 1
    let started := (s.transacted s.startRxTxns).setRadioState .receivingContinuous
    let polled := fun k => State.polled .rxPoll s.params.rxPollIntervalMs k started
    let flags := fun j => s.radioAt (3 + j) RadioMap.irqFlags
    let standby := s.wrMode .standby
    let seen := fun j => (flags j).getLsbD s.params.radio.layout.rxDone.val
    let bad := fun j => (flags j).getLsbD s.params.radio.layout.crcError.val
    (∀ k, k < polls → (∀ j, j < k → seen j = false) → seen k = true →
      (bad k = true → s.answers (k + 6) →
        exec (.radioBlockingRx ms) s = .next ((((polled (k + 1)).transacted
          [s.wrRadio RadioMap.irqFlags (flags k), standby]).setRadioState .standby).ended
            .crcDropped [])) ∧
      (bad k = false → s.answers (k + 9 + (s.packetLength (k + 4)).toNat) →
        exec (.radioBlockingRx ms) s = .next ((((polled (k + 1)).transacted
          (s.packetTxns (k + 4) ++ [s.wrRadio RadioMap.irqFlags (flags k), standby])).setRadioState
            .standby).ended .ok (s.packetLength (k + 4) :: s.packetBytes (k + 4))))) ∧
    ((∀ j, j < polls → seen j = false) → s.answers (polls + 5) →
      exec (.radioBlockingRx ms) s = .next ((((polled polls).transacted
        [s.wrRadio RadioMap.irqFlags s.params.radio.layout.clearAllFlags, standby]).setRadioState
          .standby).ended .timeout []))

/-- RADIO_SLEEP, whole (41_radio.md R175): its frame, its gate, its mode write from any recorded mode; if
the write fails the record keeps its old value. -/
def Obligations.SleepRule : Prop :=
  decodeCommand [0x15] = .ok .radioSleep ∧
  ∀ s : State,
    (s.radioLife = .failed → exec .radioSleep s = .next (s.ended .deviceNotFound [])) ∧
    (s.radioLife = .uninit → exec .radioSleep s = .next (s.ended .notInitialized [])) ∧
    (s.radioLife = .ready →
      let w := s.wrMode .sleep
      (s.answerAt 0 w.1 w.2 ≠ .fail → exec .radioSleep s =
        .next (((s.transacted [w]).setRadioState .sleep).ended .ok [])) ∧
      (s.answerAt 0 w.1 w.2 = .fail → exec .radioSleep s =
        .next ((s.transacted [w]).ended .busIoError [])))

/-- RADIO_STANDBY, whole (41_radio.md R176). -/
def Obligations.StandbyRule : Prop :=
  decodeCommand [0x16] = .ok .radioStandby ∧
  ∀ s : State,
    (s.radioLife = .failed → exec .radioStandby s = .next (s.ended .deviceNotFound [])) ∧
    (s.radioLife = .uninit → exec .radioStandby s = .next (s.ended .notInitialized [])) ∧
    (s.radioLife = .ready →
      let w := s.wrMode .standby
      (s.answerAt 0 w.1 w.2 ≠ .fail → exec .radioStandby s =
        .next (((s.transacted [w]).setRadioState .standby).ended .ok [])) ∧
      (s.answerAt 0 w.1 w.2 = .fail → exec .radioStandby s =
        .next ((s.transacted [w]).ended .busIoError [])))

/-- RADIO_SET_FREQUENCY, RADIO_SET_TX_POWER, RADIO_SET_PREAMBLE and RADIO_SET_SYNC_WORD on a Ready
radio: the hazard check, then the writes, no read (41_radio.md sections 2 and 5). -/
def Obligations.PlainSettingsComplete : Prop :=
  ∀ s : State, s.radioLife = .ready →
    (∀ freq : Word, s.answers 3 → exec (.radioSetFrequency freq) s =
      .next ((s.hazardChecked.transacted (s.frequencyTxns freq.toNat)).ended .ok [])) ∧
    (∀ txpow : Word, s.answers 1 → exec (.radioSetTxPower txpow) s =
      .next ((s.hazardChecked.transacted (s.txPowerTxns txpow.toInt)).ended .ok [])) ∧
    (∀ preamble : Word, s.answers 2 → exec (.radioSetPreamble preamble) s =
      .next ((s.hazardChecked.transacted (s.preambleTxns preamble.toNat)).ended .ok [])) ∧
    (∀ sync : Byte, s.answers 1 → exec (.radioSetSyncWord sync) s =
      .next ((s.hazardChecked.transacted [s.wrRadio RadioMap.syncWord sync]).ended .ok []))

/-- RADIO_SET_BANDWIDTH, RADIO_SET_LNA_AGC, RADIO_SET_SF, RADIO_SET_CR and RADIO_SET_CRC on a Ready
radio: the hazard check, then a read and the write of one field, the other bits as read
(41_radio.md sections 2 and 5). -/
def Obligations.FieldSettingsComplete : Prop :=
  ∀ s : State, s.radioLife = .ready →
    (∀ bw : Word, s.answers 2 → exec (.radioSetBandwidth bw) s =
      .next ((s.hazardChecked.transacted (s.bandwidthTxns 0 bw.toNat)).ended .ok [])) ∧
    (s.answers 3 → exec .radioSetLnaAgc s =
      .next ((s.hazardChecked.transacted (s.lnaAgcTxns 0)).ended .ok [])) ∧
    (∀ sf : Word, s.answers 4 → exec (.radioSetSf sf) s =
      .next ((s.hazardChecked.transacted (s.spreadingFactorTxns 0 sf.toInt)).ended .ok [])) ∧
    (∀ cr : Word, s.answers 2 → exec (.radioSetCr cr) s =
      .next ((s.hazardChecked.transacted (s.codingRateTxns 0 cr.toInt)).ended .ok [])) ∧
    (∀ crc : Byte, crc = 0 ∨ crc = 1 → s.answers 2 → exec (.radioSetCrc crc) s =
      .next ((s.hazardChecked.transacted (s.crcTxns 0 crc)).ended .ok []))

/-! ## CAN commands -/

/-- CAN_INIT with a legal mode, from any lifecycle: the reset command and the settle wait, then, for a
tabulated pair, the triple and the mode and a Ready controller, else an Unconfigured one
(42_can.md sections 1 and 2). -/
def Obligations.CanInitCompletes : Prop :=
  ∀ (s : State) (xtal bitrate : Word) (code : BitVec 3), code ∈ s.params.can.layout.modeCodes →
    let hits := fun e : CanTiming => e.crystalHz = xtal.toNat ∧ e.bitrate = bitrate.toNat
    let l := s.params.can.layout
    let settled := (s.transacted [(Device.can, s.params.framing.canReset)]).logged
      (.delay .canSettle s.params.canSettle)
    (∀ e, (e = s.params.timingA ∨ (e = s.params.timingB ∧ ¬ hits s.params.timingA)) → hits e →
      s.answers 5 →
      exec (.canInit xtal bitrate (code.setWidth 8)) s =
        .next ((((settled.transacted [s.wrCan s.params.can.cnf1 e.t1, s.wrCan s.params.can.cnf2 e.t2,
          s.wrCan s.params.can.cnf3 e.t3,
          s.wrCan s.params.can.canctrl (l.mode.insert l.modeFixed (code.setWidth 8))]).setCanMode
            code).setCanLife .ready).ended .ok [])) ∧
    (¬ hits s.params.timingA → ¬ hits s.params.timingB → s.answers 1 →
      exec (.canInit xtal bitrate (code.setWidth 8)) s =
        .next ((settled.setCanLife .unconfigured).ended .unsupportedConfiguration []))

/-- CAN_SET_MODE, whole: its frame, its mode check, its gate, its write, the record that follows only a
completed write (42_can.md R231). -/
def Obligations.CanSetModeRule : Prop :=
  ∀ (s : State) (mode : Byte),
    let l := s.params.can.layout
    decodeCommand [0x21, mode] = .ok (.canSetMode mode) ∧
    (8 ≤ mode.toNat ∨ mode.setWidth 3 ∉ l.modeCodes →
      exec (.canSetMode mode) s = .next (s.ended .illegalOperand [])) ∧
    (mode.toNat < 8 → mode.setWidth 3 ∈ l.modeCodes →
      let w := s.wrCan s.params.can.canctrl (l.mode.insert l.modeFixed mode)
      (s.canLife ≠ .ready → exec (.canSetMode mode) s = .next (s.ended .notInitialized [])) ∧
      (s.canLife = .ready → s.answerAt 0 w.1 w.2 ≠ .fail →
        exec (.canSetMode mode) s =
          .next (((s.transacted [w]).setCanMode (mode.setWidth 3)).ended .ok [])) ∧
      (s.canLife = .ready → s.answerAt 0 w.1 w.2 = .fail →
        exec (.canSetMode mode) s = .next ((s.transacted [w]).ended .busIoError [])))

/-- CAN_SEND on a Ready controller with an identifier in range and at most eight bytes, in both
identifier widths: identifier, DLC, data, request-to-send; in the reference layout the identifier bytes
are those of R224 and R225 (42_can.md sections 1 and 2). -/
def Obligations.CanSendCompletes : Prop :=
  (∀ (s : State) (id : Word) (data : List Byte), s.canLife = .ready → data.length ≤ 8 →
    canIdLegal s.params.canIdMode id = true →
    let m := s.params.canIdMode
    let c := s.params.can
    let txb := c.txb0 + c.stride * BitVec.ofNat 8 s.params.canTxMailbox
    s.answers (m.registers + 2 + data.length) →
    exec (.canSend id data) s =
      .next ((s.transacted (((c.idOffsets m).zip (c.layout.pack m id)).map
          (fun w => s.wrCan (txb + w.1) w.2) ++
        s.wrCan (txb + c.dlc) (c.layout.dlc.insert 0x00 (BitVec.ofNat 8 data.length)) ::
        data.mapIdx (fun j b => s.wrCan (txb + c.data + BitVec.ofNat 8 j) b) ++
        [(Device.can, s.params.framing.rts s.params.canTxMailbox)])).ended .ok [])) ∧
  (∀ id : Word,
    CanLayout.reference.pack .std11 id = [id.extractLsb' 3 8, id.extractLsb' 0 3 ++ 0#5] ∧
    CanLayout.reference.pack .ext29 id = [id.extractLsb' 21 8,
      id.extractLsb' 18 3 ++ 0#1 ++ 1#1 ++ 0#1 ++ id.extractLsb' 16 2, id.extractLsb' 8 8,
      id.extractLsb' 0 8])

/-- CAN_RECEIVE on a Ready controller: NO_DATA on a clear full flag; else the identifier, the DLC
capped at eight and the data, with the flag image written back with that one flag cleared; in the
reference layout the identifier is that of R226 and R227 (42_can.md sections 1 and 2). -/
def Obligations.CanReceiveCompletes : Prop :=
  (∀ s : State, s.canLife = .ready →
    let m := s.params.canIdMode
    let c := s.params.can
    let full := c.layout.rxFull.getD s.params.canRxBuffer 0
    let rxb := c.rxb0 + c.stride * BitVec.ofNat 8 s.params.canRxBuffer
    let f := s.readAt 0 .can c.canintf
    let n := m.registers
    let ids := (c.idOffsets m).mapIdx fun j o => s.readAt (1 + j) .can (rxb + o)
    let dlc := min (c.layout.dlc.get (s.readAt (n + 1) .can (rxb + c.dlc))).toNat 8
    let addrs := (List.range dlc).map fun j => rxb + c.data + BitVec.ofNat 8 j
    (f.getLsbD full.val = false → s.answers 1 →
      exec .canReceive s = .next ((s.transacted [s.rdCan c.canintf]).ended .noData [])) ∧
    (f.getLsbD full.val = true → s.answers (n + 3 + dlc) →
      exec .canReceive s = .next ((s.transacted (s.rdCan c.canintf ::
          (c.idOffsets m).map (fun o => s.rdCan (rxb + o)) ++ s.rdCan (rxb + c.dlc) ::
          addrs.map s.rdCan ++
          [s.wrCan c.canintf (f &&& ~~~((1 : Byte) <<< full.val))])).ended .ok
        (wordBytes (c.layout.unpack m ids) ++ BitVec.ofNat 8 dlc ::
          addrs.mapIdx fun j a => s.readAt (n + 2 + j) .can a)))) ∧
  (∀ h l e8 e0 : Byte,
    CanLayout.reference.unpack .std11 [h, l] = 0#21 ++ h ++ l.extractLsb' 5 3 ∧
    CanLayout.reference.unpack .ext29 [h, l, e8, e0] =
      0#3 ++ h ++ l.extractLsb' 5 3 ++ l.extractLsb' 0 2 ++ e8 ++ e0)

/-- The loopback law, in the reference layout: a CAN_SEND has ended OK, and each read of a later
CAN_RECEIVE is answered with the byte the send wrote at the same offset of the mailbox, the full flag
being set; then CAN_RECEIVE answers the same identifier, length and bytes (42_can.md R235). -/
def Obligations.CanLoopback : Prop :=
  ∀ (s t u : State) (id : Word) (data : List Byte) (es : List Event),
    s.params.can.layout = .reference →
    canIdLegal s.params.canIdMode id = true → data.length ≤ 8 →
    exec (.canSend id data) s = .next t → t.lastStatus = 0x00 → t.trace = s.trace ++ es →
    u.params = s.params → u.canLife = .ready → u.answers 15 →
    rxFull u.params.can.layout u.params.canRxBuffer (u.readAt 0 .can u.params.can.canintf) = true →
    (∀ (k : Nat) (offset : Byte),
      (s.params.can.frameOffsets s.params.canIdMode data.length)[k]? = some offset →
      ∀ v ins, .txn .can (s.params.framing.writeFrame .can (s.params.txb + offset) v) (some ins) ∈ es →
        u.readAt (k + 1) .can (u.params.rxb + offset) = v) →
    ∃ w, exec .canReceive u = .next w ∧
      w.outbox = u.outbox ++ [.result 0x00 (wordBytes id ++ BitVec.ofNat 8 data.length :: data)]

/-! ## Codec commands -/

/-- LPP_ENC_RESET, whole (43_codec.md R254). -/
def Obligations.EncResetRule : Prop :=
  decodeCommand [0x30] = .ok .lppEncReset ∧
  ∀ s : State, exec .lppEncReset s = .next ((s.setEncBuf []).ended .ok [])

/-- LPP_ENC_READ, whole: the length in one byte and the buffer, which stays (43_codec.md R259). -/
def Obligations.EncReadRule : Prop :=
  decodeCommand [0x35] = .ok .lppEncRead ∧
  ∀ s : State, exec .lppEncRead s =
    .next (s.ended .ok (BitVec.ofNat 8 s.encBuf.length :: s.encBuf))

/-- LPP_ENC_DIGITAL, whole: every value is legal; the element is appended whole or not at all
(43_codec.md R255). -/
def Obligations.EncDigitalRule : Prop :=
  ∀ (s : State) (ch v : Byte),
    decodeCommand [0x31, ch, v] = .ok (.lppEncDigital ch v) ∧
    exec (.lppEncDigital ch v) s =
      .next (if s.encBuf.length + 3 ≤ s.params.encCap then
        (s.setEncBuf (s.encBuf ++ [ch, s.params.lppCodes.digitalInput, v])).ended .ok []
      else s.ended .lengthError [])

/-- LPP_ENC_ANALOG, whole: CODEC_RANGE outside the signed 16-bit range and before the capacity check,
else two big-endian bytes appended (43_codec.md R256). -/
def Obligations.EncAnalogRule : Prop :=
  ∀ (s : State) (ch : Byte) (q : Word),
    decodeCommand [0x32, ch, q.extractLsb' 24 8, q.extractLsb' 16 8, q.extractLsb' 8 8,
      q.extractLsb' 0 8] = .ok (.lppEncAnalog ch q) ∧
    exec (.lppEncAnalog ch q) s =
      .next (if q.toInt < -32768 ∨ 32767 < q.toInt then s.ended .codecRange []
      else if s.encBuf.length + 4 ≤ s.params.encCap then
        (s.setEncBuf (s.encBuf ++ [ch, s.params.lppCodes.analogInput, q.extractLsb' 8 8,
          q.extractLsb' 0 8])).ended .ok []
      else s.ended .lengthError [])

/-- LPP_ENC_ACCEL, whole: nothing appended if any of the three fields is out of range
(43_codec.md R257). -/
def Obligations.EncAccelRule : Prop :=
  ∀ (s : State) (ch : Byte) (qx qy qz : Word),
    decodeCommand (0x33 :: ch :: (wordBytes qx ++ wordBytes qy ++ wordBytes qz)) =
      .ok (.lppEncAccel ch qx qy qz) ∧
    exec (.lppEncAccel ch qx qy qz) s =
      .next (if ∃ q ∈ [qx, qy, qz], q.toInt < -32768 ∨ 32767 < q.toInt then s.ended .codecRange []
      else if s.encBuf.length + 8 ≤ s.params.encCap then
        (s.setEncBuf (s.encBuf ++ [ch, s.params.lppCodes.accelerometer,
          qx.extractLsb' 8 8, qx.extractLsb' 0 8, qy.extractLsb' 8 8, qy.extractLsb' 0 8,
          qz.extractLsb' 8 8, qz.extractLsb' 0 8])).ended .ok []
      else s.ended .lengthError [])

/-- LPP_ENC_GPS, whole: 24-bit fields in the order latitude, longitude, altitude (43_codec.md R258). -/
def Obligations.EncGpsRule : Prop :=
  ∀ (s : State) (ch : Byte) (qlat qlon qalt : Word),
    decodeCommand (0x34 :: ch :: (wordBytes qlat ++ wordBytes qlon ++ wordBytes qalt)) =
      .ok (.lppEncGps ch qlat qlon qalt) ∧
    exec (.lppEncGps ch qlat qlon qalt) s =
      .next (if ∃ q ∈ [qlat, qlon, qalt], q.toInt < -8388608 ∨ 8388607 < q.toInt then
        s.ended .codecRange []
      else if s.encBuf.length + 11 ≤ s.params.encCap then
        (s.setEncBuf (s.encBuf ++ [ch, s.params.lppCodes.gps,
          qlat.extractLsb' 16 8, qlat.extractLsb' 8 8, qlat.extractLsb' 0 8,
          qlon.extractLsb' 16 8, qlon.extractLsb' 8 8, qlon.extractLsb' 0 8,
          qalt.extractLsb' 16 8, qalt.extractLsb' 8 8, qalt.extractLsb' 0 8])).ended .ok []
      else s.ended .lengthError [])

/-- The decoder's walk, step by step: the end of the stream, a lone channel byte, an unknown type (no
record, the skip), a value cut short, and an element with its fields sign-extended from their own width
(43_codec.md R260). -/
def Obligations.DecoderWalk : Prop :=
  ∀ p : Params,
    decodeStream p [] = .ok [] ∧
    (∀ ch, decodeStream p [ch] = .error .codecTruncated) ∧
    (∀ ch t rest, p.lppCodes.kindOf t = none →
      decodeStream p (ch :: t :: rest) = decodeStream p (rest.drop p.unknownAdvance)) ∧
    (∀ ch t rest k, p.lppCodes.kindOf t = some k → rest.length < k.fields * k.width →
      decodeStream p (ch :: t :: rest) = .error .codecTruncated) ∧
    (∀ ch t rest k, p.lppCodes.kindOf t = some k → k.fields * k.width ≤ rest.length →
      decodeStream p (ch :: t :: rest) =
        (decodeStream p (rest.drop (k.fields * k.width))).map fun rs =>
          ⟨ch, t, (List.range k.fields).map fun j =>
            let raw := unbe ((rest.drop (j * k.width)).take k.width)
            if k.signed = true ∧ 2 ^ (8 * k.width - 1) ≤ raw then (raw : Int) - 2 ^ (8 * k.width)
            else raw⟩ :: rs)

/-- LPP_DECODE, whole: the count and the records of the walk, or CODEC_TRUNCATED with no data; the
encoder buffer and the rest of the state stay (43_codec.md R261). -/
def Obligations.LppDecodeRule : Prop :=
  ∀ (s : State) (stream : List Byte),
    (∀ a b : Byte, stream.length = a.toNat * 256 + b.toNat →
      decodeCommand (0x38 :: a :: b :: stream) = .ok (.lppDecode stream)) ∧
    (∀ rs, decodeStream s.params stream = .ok rs →
      exec (.lppDecode stream) s = .next (s.ended .ok (beNat 2 rs.length ++
        (rs.map fun r => r.channel :: r.type :: (r.values.map (beInt 4)).flatten).flatten))) ∧
    (∀ e, decodeStream s.params stream = .error e →
      e = .codecTruncated ∧ exec (.lppDecode stream) s = .next (s.ended .codecTruncated []))

/-- Round trip: a stream of elements, each encoded without error, decodes to exactly their channels,
types and scaled integers (43_codec.md section 4). -/
def Obligations.CodecRoundTrip : Prop :=
  ∀ (p : Params) (els : List (LppKind × Byte × List Int)) (bytes : List (List Byte)),
    p.lppCodes.distinct = true → (∀ e ∈ els, e.2.2.length = e.1.fields) →
    els.map (fun e => encodeElement p.lppCodes e.1 e.2.1 e.2.2) = bytes.map some →
    decodeStream p bytes.flatten = .ok (els.map fun e => ⟨e.2.1, p.lppCodes.codeOf e.1, e.2.2⟩)

/-- Host-side scaling: the rounding takes the nearest integer, ties away from zero, so a real value
comes back within half a unit of its scale; and each pseudo-instruction expands as R121 says, every real
value with its own scale, where the scaled integers are s32 values (43_codec.md section 4,
30_encoding.md section 5; for other values see log entry 17). -/
def Obligations.HostScaling : Prop :=
  (∀ (x : ℚ) (scale : Nat), 0 < scale →
    |(rha (x * scale) : ℚ) / scale - x| ≤ 1 / (2 * scale)) ∧
  (∀ n : Int, rha ((n : ℚ) + 1 / 2) = if 0 ≤ n then n + 1 else n) ∧
  (∀ (l : CanLayout) (ch : Byte),
    let carried := fun q : ℚ => -(2 ^ 31) ≤ rha q ∧ rha q < 2 ^ 31
    let operand := fun q : ℚ => BitVec.ofInt 32 (rha q)
    (∀ v : ℚ, carried (v * 100) →
      Pseudo.expand l (.encAnalogV ch v) = some [.lppEncAnalog ch (operand (v * 100))]) ∧
    (∀ x y z : ℚ, carried (x * 1000) → carried (y * 1000) → carried (z * 1000) →
      Pseudo.expand l (.encAccelV ch x y z) =
        some [.lppEncAccel ch (operand (x * 1000)) (operand (y * 1000)) (operand (z * 1000))]) ∧
    (∀ lat lon alt : ℚ, carried (lat * 10000) → carried (lon * 10000) → carried (alt * 100) →
      Pseudo.expand l (.encGpsV ch lat lon alt) =
        some [.lppEncGps ch (operand (lat * 10000)) (operand (lon * 10000)) (operand (alt * 100))]) ∧
    Pseudo.expand l (.encDigitalB ch true) = some [.lppEncDigital ch 1] ∧
    Pseudo.expand l (.encDigitalB ch false) = some [.lppEncDigital ch 0] ∧
    (∀ payload, Pseudo.expand l (.radioTx payload) = some [.radioTransmit payload]) ∧
    Pseudo.expand l .radioRestartRx = some [.radioStandby, .radioStartRx] ∧
    Pseudo.expand l .canNormal = some [.canSetMode (l.normal.setWidth 8)])

/-! ## Rows that are no commands -/

/-- A bus frame run on its own is the one transaction that shifts its bytes out, and no bookkeeping is
made (the model's choice, log entry 8; the bytes are 30_encoding.md section 3's). -/
def Obligations.BusFramesTransact : Prop :=
  ∀ s : State,
    (∀ addr val, exec (.busframeRadioWrite addr val) s =
      .next (s.afterTxn .radio [1#1 ++ addr, val])) ∧
    (∀ addr, exec (.busframeRadioRead addr) s = .next (s.afterTxn .radio [0#1 ++ addr, 0x00])) ∧
    (∀ addr val, exec (.busframeCanWrite addr val) s = .next (s.afterTxn .can [0x02, addr, val])) ∧
    (∀ addr, exec (.busframeCanRead addr) s = .next (s.afterTxn .can [0x03, addr, 0x00])) ∧
    exec .busframeCanReset s = .next (s.afterTxn .can [0xC0]) ∧
    (∀ mask, exec (.busframeCanRts mask) s = .next (s.afterTxn .can [0b10000#5 ++ mask]))

/-- A payload element run on its own answers its record, every field sign-extended to four bytes
(the model's choice, log entry 9; the record is 30_encoding.md table R's). -/
def Obligations.ElementsAnswerRecords : Prop :=
  ∀ (s : State) (ch : Byte),
    (∀ v : Byte, exec (.lppDigitalInput ch v) s =
      .next (s.answered (.record [ch, s.params.lppCodes.digitalInput, 0, 0, 0, v]))) ∧
    (∀ v : BitVec 16, exec (.lppAnalogInput ch v) s =
      .next (s.answered (.record (ch :: s.params.lppCodes.analogInput ::
        wordBytes (v.signExtend 32))))) ∧
    (∀ x y z : BitVec 16, exec (.lppAccelerometer ch x y z) s =
      .next (s.answered (.record (ch :: s.params.lppCodes.accelerometer ::
        (wordBytes (x.signExtend 32) ++ wordBytes (y.signExtend 32) ++
          wordBytes (z.signExtend 32)))))) ∧
    (∀ lat lon alt : BitVec 24, exec (.lppGps ch lat lon alt) s =
      .next (s.answered (.record (ch :: s.params.lppCodes.gps ::
        (wordBytes (lat.signExtend 32) ++ wordBytes (lon.signExtend 32) ++
          wordBytes (alt.signExtend 32))))))

/-- What a payload element run on its own answers is the record LPP_DECODE gives for its bytes
(log entry 9; 43_codec.md section 3). -/
def Obligations.ElementsAgreeWithDecoder : Prop :=
  ∀ (s : State) (i : Instr) (bytes : List Byte), s.params.lppCodes.distinct = true →
    encode s.params.lppCodes i = .element bytes →
    ∃ r, decodeStream s.params bytes = .ok [r] ∧
      exec i s = .next (s.answered (.record (r.channel :: r.type ::
        (r.values.map (beInt 4)).flatten)))

/-! ## Laws of the values written -/

/-- The clamp law, in the reference profile: whatever the operands and the bytes read, what the radio
commands write is in range, and the other bits of a register that is read first are as read. The power by
every radio command; the carrier word and the preamble by their settings and by RADIO_INIT; the spreading
factor, coding rate and bandwidth by their settings, and by RADIO_INIT in its transactions 14, 16 and 6,
counted from 0. The bandwidth code is one of the table's but for input 0, whose default code need not be
(log entry 21; 41_radio.md section 6). -/
def Obligations.ClampLaw : Prop :=
  ∀ (s t : State) (i : Instr) (es : List Event), s.params.framing = .reference →
    s.params.radio = .reference → exec i s = .next t → t.trace = s.trace ++ es →
    let wrote := fun reg v : Byte => ∃ ins, Event.txn .radio [0x80 ||| reg, v] ins ∈ es
    let wroteAt := fun (k : Nat) (reg v : Byte) =>
      ∃ ins, (es.filter Event.isTxn)[k]? = some (Event.txn .radio [0x80 ||| reg, v] ins)
    let wasRead := fun reg r : Byte => ∃ a, Event.txn .radio [reg, 0x00] (some [a, r]) ∈ es
    let factor := fun v : Byte => 6 ≤ v.toNat / 16 ∧ v.toNat / 16 ≤ 12
    let rate := fun v : Byte => 1 ≤ (v.extractLsb' 1 3).toNat ∧ (v.extractLsb' 1 3).toNat ≤ 4
    let code := fun (bw : Word) (v : Byte) =>
      if bw = 0 ∨ s.params.bwTable = [] then v.extractLsb' 4 4 = s.params.bwDefaultCode
      else v.extractLsb' 4 4 ∈ s.params.bwTable.map Prod.snd
    let carrier := fun freq : Word => ∀ a b c, wrote 0x06 a → wrote 0x07 b → wrote 0x08 c →
      unbe [a, b, c] = min (rneDiv (freq.toNat * 2 ^ 19) s.params.radioXtalHz) (2 ^ 24 - 1)
    let symbols := fun n : Word => ∀ a b, wrote 0x20 a → wrote 0x21 b → unbe [a, b] = min n.toNat 65535
    (i.family = .radio → ∀ v, wrote 0x09 v → 0x80 ≤ v.toNat ∧ v.toNat ≤ 0x8F) ∧
    (∀ sf, i = .radioSetSf sf → ∀ v, wrote 0x1E v →
      factor v ∧ ∀ r, wasRead 0x1E r → v &&& 0x0F = r &&& 0x0F) ∧
    (∀ cr, i = .radioSetCr cr → ∀ v, wrote 0x1D v →
      rate v ∧ ∀ r, wasRead 0x1D r → v &&& 0xF1 = r &&& 0xF1) ∧
    (∀ bw, i = .radioSetBandwidth bw → ∀ v, wrote 0x1D v →
      code bw v ∧ ∀ r, wasRead 0x1D r → v &&& 0x0F = r &&& 0x0F) ∧
    (∀ freq, i = .radioSetFrequency freq → carrier freq) ∧
    (∀ n, i = .radioSetPreamble n → symbols n) ∧
    (∀ freq bw sf cr n sync txpow crc, i = .radioInit freq bw sf cr n sync txpow crc →
      carrier freq ∧ symbols n ∧ (∀ v, wroteAt 14 0x1E v → factor v) ∧
      (∀ v, wroteAt 16 0x1D v → rate v) ∧ ∀ v, wroteAt 6 0x1D v → code bw v)

/-- Frequency round trip: unclamped, the rebuilt frequency is within half a synthesizer step, frf being
the nearest integer; clamped, frf is 0xFFFFFF and the error is at most one step exactly up to 2^24 steps. At
a 32 MHz crystal the first clamped integer is 1 023 999 970 Hz, the error is over a half step from there on,
at most one step up to 1 024 000 000 Hz and over one step above (41_radio.md section 6). -/
def Obligations.FrequencyRoundTrip : Prop :=
  (∀ f xtal : Nat, 0 < xtal → 2 * (f * 2 ^ 19) < (2 ^ 25 - 1) * xtal →
    let frf := (frfWord xtal f).toNat
    2 * (frf * xtal) ≤ 2 * (f * 2 ^ 19) + xtal ∧ 2 * (f * 2 ^ 19) ≤ 2 * (frf * xtal) + xtal) ∧
  (∀ f xtal : Nat, 0 < xtal → (2 ^ 25 - 1) * xtal ≤ 2 * (f * 2 ^ 19) →
    (frfWord xtal f).toNat = 2 ^ 24 - 1 ∧
    (f * 2 ^ 19 - (2 ^ 24 - 1) * xtal ≤ xtal ↔ f * 2 ^ 19 ≤ 2 ^ 24 * xtal)) ∧
  (∀ f : Nat,
    let frf := (frfWord 32000000 f).toNat
    let step := 32000000
    (1023999970 ≤ f → frf = 2 ^ 24 - 1 ∧ step < 2 * (f * 2 ^ 19 - frf * step)) ∧
    (1023999970 ≤ f → f ≤ 1024000000 → f * 2 ^ 19 - frf * step ≤ step) ∧
    (1024000000 < f → step < f * 2 ^ 19 - frf * step) ∧
    (f < 1023999970 → 2 * (f * 2 ^ 19) < (2 ^ 25 - 1) * step))

/-- SelectBandwidth: the default for 0, else the code of the nearest entry, ties to the lower index;
with the reference table the midpoints take the lower entry, and inputs outside the table its first or
last entry (41_radio.md R154). -/
def Obligations.BandwidthNearest : Prop :=
  (∀ p : Params, selectBandwidth p 0 = p.bwDefaultCode) ∧
  (∀ (p : Params) (bw : Nat), bw ≠ 0 → p.bwTable ≠ [] →
    ∃ (i : Nat) (e : Nat × BitVec 4), p.bwTable[i]? = some e ∧ selectBandwidth p bw = e.2 ∧
      ∀ (j : Nat) (e' : Nat × BitVec 4), p.bwTable[j]? = some e' →
        |(bw : Int) - e.1| ≤ |(bw : Int) - e'.1| ∧ (j < i → |(bw : Int) - e.1| < |(bw : Int) - e'.1|)) ∧
  (∀ p : Params, p.bwTable = bwTableReference → p.bwDefaultCode = 7 →
    selectBandwidth p 0 = 7 ∧
    ([9100, 13000, 18200, 26025, 36475, 52100, 93750, 187500, 375000].map (selectBandwidth p) =
      [0, 1, 2, 3, 4, 5, 6, 7, 8]) ∧
    ([9101, 13001, 18201, 26026, 36476, 52101, 93751, 187501, 375001].map (selectBandwidth p) =
      [1, 2, 3, 4, 5, 6, 7, 8, 9]) ∧
    (∀ bw, 500000 < bw → selectBandwidth p bw = 9) ∧
    (∀ bw, 0 < bw → bw ≤ 7800 → selectBandwidth p bw = 0))

/-! ## After a bus error, and the reference profile -/

/-- A command that a bus error ends leaves both lifecycles, the CAN mode record and the encoder buffer as
they were, and the recorded radio mode at the last mode write that completed: for RADIO_INIT Sleep once its
second transaction is past, for RADIO_TRANSMIT Transmitting once the payload, its length and the mode write
are past, for RADIO_BLOCKING_RX ReceivingContinuous once its third is past, and for every other command
what it was (41_radio.md R152, R167, R170, 42_can.md R222, R230). A failed transaction is the last one, so
the number of transactions made says which one failed. -/
def Obligations.BusErrorKeepsRecords : Prop :=
  ∀ (s t : State) (i : Instr), exec i s = .next t → t.outbox = s.outbox ++ [.result 0x11 []] →
    t.radioLife = s.radioLife ∧ t.canLife = s.canLife ∧ t.canMode = s.canMode ∧ t.encBuf = s.encBuf ∧
    t.radioState = (match i with
      | .radioInit _ _ _ _ _ _ _ _ =>
        if t.draws ≤ s.draws + 2 then s.radioState else .sleep
      | .radioTransmit payload =>
        if t.draws ≤ s.draws + payload.length + 3 then s.radioState else .transmitting
      | .radioBlockingRx _ => if t.draws ≤ s.draws + 3 then s.radioState else .receivingContinuous
      | _ => s.radioState)

/-- The reference profile: the bytes its framing, field positions, write values and codes give (from
general knowledge, says the spec: 30_encoding.md section 3, 41_radio.md section 2, 42_can.md section 1). -/
def Obligations.ReferenceProfile : Prop :=
  let p := Framing.reference
  let r := RadioLayout.reference
  let c := CanLayout.reference
  (∀ addr v : Byte, p.writeFrame .radio addr v = [0x80 ||| (addr &&& 0x7F), v] ∧
    p.readFrame .radio addr = [addr &&& 0x7F, 0x00] ∧ p.writeFrame .can addr v = [0x02, addr, v] ∧
    p.readFrame .can addr = [0x03, addr, 0x00]) ∧
  p.readPosition .radio = 1 ∧ p.readPosition .can = 2 ∧ p.canReset = [0xC0] ∧
  p.canRts.length = 3 ∧ (∀ n : Nat, n < 3 → p.rts n = [0x80 ||| ((1 : Byte) <<< n)]) ∧
  ([RadioState.sleep, .standby, .transmitting, .receivingContinuous].map (opModeByte r) =
    [0x80, 0x81, 0x83, 0x85]) ∧
  (∀ (b : Byte) (code : BitVec 4),
    withBandwidth r b code = (b &&& 0x0F) ||| (code.setWidth 8 <<< 4)) ∧
  (∀ (b : Byte) (q : Int), 6 ≤ q → q ≤ 12 →
    withSpreadingFactor r b q = (b &&& 0x0F) ||| (BitVec.ofInt 8 q <<< 4) ∧
    detectionPair r q = (if q = 6 then (0xC5, 0x0C) else (0xC3, 0x0A))) ∧
  (∀ (b : Byte) (q : Int), 5 ≤ q → q ≤ 8 →
    withCodingRate r b q = (b &&& 0xF1) ||| (BitVec.ofInt 8 (q - 4) <<< 1)) ∧
  (∀ txpow : Int, paConfigByte r txpow = 0x80 ||| BitVec.ofInt 8 (min (max txpow 2) 17 - 2)) ∧
  (∀ (b : Byte) (on : Bool), withCrc r b on = if on then b ||| 0x04 else b &&& 0xFB) ∧
  r.lnaBoost = 0x03 ∧ r.agcOn = 0x04 ∧
  (∀ f : Byte, rxDone r f = f.getLsbD 6 ∧ crcError r f = f.getLsbD 5 ∧ txDone r f = f.getLsbD 3) ∧
  r.clearTxDone = 0x08 ∧ r.clearAllFlags = 0xFF ∧
  c.modeCodes = [0b000, 0b011, 0b100] ∧
  (∀ m : BitVec 3, canctrlByte c m = m.setWidth 8 <<< 5) ∧
  (∀ n : Nat, n ≤ 8 → dlcByte c n = BitVec.ofNat 8 n) ∧
  (∀ b : Byte, dlcCount c b = min (b.toNat % 16) 8) ∧
  c.rxFull.length = 2 ∧
  (∀ (m : Nat) (f : Byte), m < 2 → rxFull c m f = f.getLsbD m ∧
    clearRxFull c m f = f &&& ~~~((1 : Byte) <<< m))
end

