-- ==== Sys2Proof/Laws/Operands.lean ====
section
/-! SUPPORT. Byte lists and the integers they stand for, sign extension, codec fields and the decoder's
walk. -/

namespace Sys2Proof

@[simp] theorem beNat_length : ∀ (n x : Nat), (beNat n x).length = n
  | 0, _ => rfl
  | n + 1, x => by simp [beNat, beNat_length n x]

@[simp] theorem beInt_length (n : Nat) (x : Int) : (beInt n x).length = n := beNat_length _ _

@[simp] theorem unbe_nil : unbe [] = 0 := rfl

theorem unbe_foldl (acc : Nat) (bs : List Byte) :
    bs.foldl (fun acc b => acc * 256 + b.toNat) acc = acc * 256 ^ bs.length + unbe bs := by
  induction bs generalizing acc with
  | nil => simp
  | cons b bs ih =>
    simp only [List.foldl_cons, List.length_cons, unbe]
    rw [ih, ih (0 * 256 + b.toNat)]
    ring

theorem unbe_cons (b : Byte) (bs : List Byte) :
    unbe (b :: bs) = b.toNat * 256 ^ bs.length + unbe bs := by
  conv_lhs => unfold unbe
  rw [List.foldl_cons, unbe_foldl]
  simp

theorem unbe_append (as bs : List Byte) :
    unbe (as ++ bs) = unbe as * 256 ^ bs.length + unbe bs := by
  conv_lhs => unfold unbe
  rw [List.foldl_append, unbe_foldl]
  rfl

theorem unbe_lt (bs : List Byte) : unbe bs < 256 ^ bs.length := by
  induction bs with
  | nil => simp
  | cons b bs ih =>
    rw [unbe_cons, List.length_cons, pow_succ]
    have hb := b.isLt
    have hp : 0 < 256 ^ bs.length := by positivity
    nlinarith

/-- The integer of the low `n` bytes (00_scope.md R11). -/
theorem unbe_beNat : ∀ (n x : Nat), unbe (beNat n x) = x % 256 ^ n
  | 0, x => by simp [beNat, Nat.mod_one]
  | n + 1, x => by
    rw [beNat, unbe_cons, beNat_length, unbe_beNat n x, BitVec.toNat_ofNat]
    have h := Nat.mod_mul (x := x) (a := 256 ^ n) (b := 256)
    rw [pow_succ 256 n, h, show (2 : Nat) ^ 8 = 256 by norm_num]
    ring

theorem beNat_mod (n x : Nat) (m : Nat) (h : n ≤ m) : beNat n (x % 256 ^ m) = beNat n x := by
  induction n with
  | zero => rfl
  | succ n ih =>
    rw [beNat, beNat, ih (by omega)]
    congr 1
    apply BitVec.eq_of_toNat_eq
    simp only [BitVec.toNat_ofNat]
    obtain ⟨j, rfl⟩ := Nat.exists_eq_add_of_le h
    rw [show n + 1 + j = n + (j + 1) by omega, pow_add, Nat.mod_mul_right_div_self, pow_succ,
      show (2 : Nat) ^ 8 = 256 by norm_num, Nat.mod_mul_left_mod]

/-- The bytes of the integer a list stands for are the list. -/
theorem beNat_unbe : ∀ bs : List Byte, beNat bs.length (unbe bs) = bs
  | [] => rfl
  | b :: bs => by
    rw [List.length_cons, beNat, unbe_cons]
    have hlt := unbe_lt bs
    have hpos : 0 < 256 ^ bs.length := by positivity
    congr 1
    · apply BitVec.eq_of_toNat_eq
      rw [BitVec.toNat_ofNat, Nat.add_comm, Nat.add_mul_div_right _ _ hpos,
        Nat.div_eq_of_lt hlt, Nat.zero_add]
      exact Nat.mod_eq_of_lt b.isLt
    · rw [← beNat_mod bs.length _ bs.length (le_refl _), Nat.add_comm,
        Nat.add_mul_mod_self_right, Nat.mod_eq_of_lt hlt, beNat_unbe bs]

/-- A 32-bit operand comes back from its four bytes (30_encoding.md R97). -/
theorem wordBytes_eq (w : Word) : wordBytes w =
    [BitVec.ofNat 8 (w.toNat / 256 ^ 3), BitVec.ofNat 8 (w.toNat / 256 ^ 2),
      BitVec.ofNat 8 (w.toNat / 256 ^ 1), BitVec.ofNat 8 (w.toNat / 256 ^ 0)] := rfl

@[simp] theorem wordBytes_length (w : Word) : (wordBytes w).length = 4 := rfl

theorem ofNat_unbe_wordBytes (w : Word) : BitVec.ofNat 32 (unbe (wordBytes w)) = w := by
  apply BitVec.eq_of_toNat_eq
  have := w.isLt
  rw [wordBytes, unbe_beNat, BitVec.toNat_ofNat]
  omega

@[simp] theorem wordOf_wordBytes (w : Word) :
    wordOf (BitVec.ofNat 8 (w.toNat / 256 ^ 3)) (BitVec.ofNat 8 (w.toNat / 256 ^ 2))
      (BitVec.ofNat 8 (w.toNat / 256 ^ 1)) (BitVec.ofNat 8 (w.toNat / 256 ^ 0)) = w :=
  ofNat_unbe_wordBytes w

@[simp] theorem wordBytes_wordOf (a b c d : Byte) : wordBytes (wordOf a b c d) = [a, b, c, d] := by
  have h := unbe_lt [a, b, c, d]
  have : (wordOf a b c d).toNat = unbe [a, b, c, d] := by
    rw [wordOf, BitVec.toNat_ofNat]
    exact Nat.mod_eq_of_lt (by simpa using h)
  rw [wordBytes, this]
  exact beNat_unbe [a, b, c, d]

/-- Sign extension undoes the two's complement of a value in the signed range (00_scope.md R11). -/
theorem sext_emod {n : Nat} {q : Int} (hn : 0 < n) (hlo : -(2 ^ (n - 1)) ≤ q)
    (hhi : q < 2 ^ (n - 1)) : sext n (q % 2 ^ n).toNat = q := by
  obtain ⟨m, rfl⟩ : ∃ m, n = m + 1 := ⟨n - 1, by omega⟩
  simp only [Nat.add_sub_cancel] at hlo hhi
  have h2 : (2 : Int) ^ (m + 1) = 2 * 2 ^ m := by ring
  have hnat : ((2 ^ m : Nat) : Int) = 2 ^ m := by norm_cast
  unfold sext
  simp only [Nat.add_sub_cancel]
  rcases le_or_gt 0 q with h0 | h0
  · have hm : q % 2 ^ (m + 1) = q := Int.emod_eq_of_lt h0 (by omega)
    rw [hm, if_neg (by omega)]
    omega
  · have hm : q % 2 ^ (m + 1) = q + 2 ^ (m + 1) := by
      rw [← Int.add_emod_right, Int.emod_eq_of_lt (by omega) (by omega)]
    rw [hm, if_pos (by omega)]
    omega

theorem pow256 (w : Nat) : (256 : Nat) ^ w = 2 ^ (8 * w) := by
  rw [pow_mul]
  norm_num

theorem unbe_beInt (w : Nat) (q : Int) : unbe (beInt w q) = (q % 2 ^ (8 * w)).toNat := by
  have hc : ((256 ^ w : Nat) : Int) = 2 ^ (8 * w) := by
    rw [pow256]
    norm_cast
  have h0 : (0 : Int) < 2 ^ (8 * w) := by positivity
  have h1 := Int.emod_lt_of_pos q h0
  have h2 := Int.emod_nonneg q (ne_of_gt h0)
  rw [beInt, unbe_beNat, hc]
  refine Nat.mod_eq_of_lt ?_
  have : ((256 ^ w : Nat) : Int) = 2 ^ (8 * w) := hc
  omega

/-- A field that fits decodes to the value it encodes (43_codec.md R252, R260, R263). -/
theorem decodeField_beInt {signed : Bool} {w : Nat} {q : Int} (hw : 0 < w)
    (h : fieldFits signed w q = true) : decodeField signed (beInt w q) = q := by
  unfold decodeField
  rw [beInt_length, unbe_beInt]
  unfold fieldFits at h
  cases signed with
  | true =>
    simp only [if_true, decide_eq_true_eq] at h ⊢
    exact sext_emod (by omega) h.1 h.2
  | false =>
    simp only [Bool.false_eq_true, if_false, decide_eq_true_eq] at h ⊢
    rw [Int.emod_eq_of_lt h.1 h.2]
    omega

theorem encodeField_some {signed : Bool} {w : Nat} {q : Int} (h : fieldFits signed w q = true) :
    encodeField signed w q = some (beInt w q) := by simp [encodeField, h]

theorem encodeField_none {signed : Bool} {w : Nat} {q : Int} (h : fieldFits signed w q = false) :
    encodeField signed w q = none := by simp [encodeField, h]

/-- The decoder's walk does not depend on its fuel once that is the stream's length
(43_codec.md R260). -/
theorem decodeWalk_fuel (codes : LppCodes) (adv : Nat) :
    ∀ (f g : Nat) (s : List Byte), s.length ≤ f → s.length ≤ g →
      decodeWalk codes adv f s = decodeWalk codes adv g s
  | 0, 0, _, _, _ => rfl
  | 0, _ + 1, [], _, _ => by simp [decodeWalk]
  | 0, _ + 1, _ :: _, h, _ => by simp at h
  | _ + 1, 0, [], _, _ => by simp [decodeWalk]
  | _ + 1, 0, _ :: _, _, h => by simp at h
  | _ + 1, _ + 1, [], _, _ => by simp [decodeWalk]
  | _ + 1, _ + 1, [_], _, _ => by simp [decodeWalk]
  | f + 1, g + 1, ch :: t :: rest, hf, hg => by
    simp only [List.length_cons] at hf hg
    simp only [decodeWalk]
    cases codes.kindOf t with
    | none =>
      exact decodeWalk_fuel codes adv f g _ (by rw [List.length_drop]; omega)
        (by rw [List.length_drop]; omega)
    | some k =>
      simp only
      rw [decodeWalk_fuel codes adv f g (rest.drop k.size) (by rw [List.length_drop]; omega)
        (by rw [List.length_drop]; omega)]

/-- The walk at a known type byte, without fuel (43_codec.md R260). -/
theorem decodeStream_element (p : Params) (ch t : Byte) (rest : List Byte) (k : LppKind)
    (hk : p.lppCodes.kindOf t = some k) (hlen : k.size ≤ rest.length) :
    decodeStream p (ch :: t :: rest) =
      match decodeStream p (rest.drop k.size) with
      | .ok rs => .ok (⟨ch, t, decodeFields k.signed k.width k.fields rest⟩ :: rs)
      | .error e => .error e := by
  unfold decodeStream
  rw [List.length_cons, decodeWalk]
  simp only [hk, if_neg (Nat.not_lt.2 hlen)]
  have hw := decodeWalk_fuel p.lppCodes p.unknownAdvance (t :: rest).length
    (rest.drop k.size).length (rest.drop k.size) (by rw [List.length_drop, List.length_cons]; omega)
    (le_refl _)
  cases hd : decodeWalk p.lppCodes p.unknownAdvance (rest.drop k.size).length (rest.drop k.size) <;>
    rw [hd] at hw <;> simp only [hw]

/-- The walk at an unknown type byte, without fuel: no record, and the skip (43_codec.md R260). -/
theorem decodeStream_unknown (p : Params) (ch t : Byte) (rest : List Byte)
    (hk : p.lppCodes.kindOf t = none) :
    decodeStream p (ch :: t :: rest) = decodeStream p (rest.drop p.unknownAdvance) := by
  unfold decodeStream
  rw [List.length_cons, decodeWalk]
  simp only [hk]
  exact decodeWalk_fuel _ _ _ _ _ (by rw [List.length_drop, List.length_cons]; omega) (le_refl _)

end Sys2Proof
end

