-- ==== Sys2Proof/Laws/State.lean ====
section
/-! SUPPORT. What each update of the state does to each field: one lemma per field per update, all by
rfl (after a case split where the update picks its field by a device, a line or a check). -/

namespace Sys2Proof.Machine

open Sys2Proof

/-! ## State.setRadioState -/

@[simp] theorem State.setRadioState_radioState (s : State) (m : RadioState) : (s.setRadioState m).radioState = m := rfl
@[simp] theorem State.setRadioState_radioLife (s : State) (m : RadioState) : (s.setRadioState m).radioLife = s.radioLife := rfl
@[simp] theorem State.setRadioState_canLife (s : State) (m : RadioState) : (s.setRadioState m).canLife = s.canLife := rfl
@[simp] theorem State.setRadioState_canMode (s : State) (m : RadioState) : (s.setRadioState m).canMode = s.canMode := rfl
@[simp] theorem State.setRadioState_rwHazard (s : State) (m : RadioState) : (s.setRadioState m).rwHazard = s.rwHazard := rfl
@[simp] theorem State.setRadioState_lastStatus (s : State) (m : RadioState) : (s.setRadioState m).lastStatus = s.lastStatus := rfl
@[simp] theorem State.setRadioState_encBuf (s : State) (m : RadioState) : (s.setRadioState m).encBuf = s.encBuf := rfl
@[simp] theorem State.setRadioState_faults (s : State) (m : RadioState) : (s.setRadioState m).faults = s.faults := rfl
@[simp] theorem State.setRadioState_csRadio (s : State) (m : RadioState) : (s.setRadioState m).csRadio = s.csRadio := rfl
@[simp] theorem State.setRadioState_csCan (s : State) (m : RadioState) : (s.setRadioState m).csCan = s.csCan := rfl
@[simp] theorem State.setRadioState_resetLine (s : State) (m : RadioState) : (s.setRadioState m).resetLine = s.resetLine := rfl
@[simp] theorem State.setRadioState_ledLine (s : State) (m : RadioState) : (s.setRadioState m).ledLine = s.ledLine := rfl
@[simp] theorem State.setRadioState_params (s : State) (m : RadioState) : (s.setRadioState m).params = s.params := rfl
@[simp] theorem State.setRadioState_inbox (s : State) (m : RadioState) : (s.setRadioState m).inbox = s.inbox := rfl
@[simp] theorem State.setRadioState_outbox (s : State) (m : RadioState) : (s.setRadioState m).outbox = s.outbox := rfl
@[simp] theorem State.setRadioState_trace (s : State) (m : RadioState) : (s.setRadioState m).trace = s.trace := rfl
@[simp] theorem State.setRadioState_replies (s : State) (m : RadioState) : (s.setRadioState m).replies = s.replies := rfl
@[simp] theorem State.setRadioState_draws (s : State) (m : RadioState) : (s.setRadioState m).draws = s.draws := rfl

/-! ## State.setRadioLife -/

@[simp] theorem State.setRadioLife_radioState (s : State) (l : RadioLife) : (s.setRadioLife l).radioState = s.radioState := rfl
@[simp] theorem State.setRadioLife_radioLife (s : State) (l : RadioLife) : (s.setRadioLife l).radioLife = l := rfl
@[simp] theorem State.setRadioLife_canLife (s : State) (l : RadioLife) : (s.setRadioLife l).canLife = s.canLife := rfl
@[simp] theorem State.setRadioLife_canMode (s : State) (l : RadioLife) : (s.setRadioLife l).canMode = s.canMode := rfl
@[simp] theorem State.setRadioLife_rwHazard (s : State) (l : RadioLife) : (s.setRadioLife l).rwHazard = s.rwHazard := rfl
@[simp] theorem State.setRadioLife_lastStatus (s : State) (l : RadioLife) : (s.setRadioLife l).lastStatus = s.lastStatus := rfl
@[simp] theorem State.setRadioLife_encBuf (s : State) (l : RadioLife) : (s.setRadioLife l).encBuf = s.encBuf := rfl
@[simp] theorem State.setRadioLife_faults (s : State) (l : RadioLife) : (s.setRadioLife l).faults = s.faults := rfl
@[simp] theorem State.setRadioLife_csRadio (s : State) (l : RadioLife) : (s.setRadioLife l).csRadio = s.csRadio := rfl
@[simp] theorem State.setRadioLife_csCan (s : State) (l : RadioLife) : (s.setRadioLife l).csCan = s.csCan := rfl
@[simp] theorem State.setRadioLife_resetLine (s : State) (l : RadioLife) : (s.setRadioLife l).resetLine = s.resetLine := rfl
@[simp] theorem State.setRadioLife_ledLine (s : State) (l : RadioLife) : (s.setRadioLife l).ledLine = s.ledLine := rfl
@[simp] theorem State.setRadioLife_params (s : State) (l : RadioLife) : (s.setRadioLife l).params = s.params := rfl
@[simp] theorem State.setRadioLife_inbox (s : State) (l : RadioLife) : (s.setRadioLife l).inbox = s.inbox := rfl
@[simp] theorem State.setRadioLife_outbox (s : State) (l : RadioLife) : (s.setRadioLife l).outbox = s.outbox := rfl
@[simp] theorem State.setRadioLife_trace (s : State) (l : RadioLife) : (s.setRadioLife l).trace = s.trace := rfl
@[simp] theorem State.setRadioLife_replies (s : State) (l : RadioLife) : (s.setRadioLife l).replies = s.replies := rfl
@[simp] theorem State.setRadioLife_draws (s : State) (l : RadioLife) : (s.setRadioLife l).draws = s.draws := rfl

/-! ## State.setCanLife -/

@[simp] theorem State.setCanLife_radioState (s : State) (l : CanLife) : (s.setCanLife l).radioState = s.radioState := rfl
@[simp] theorem State.setCanLife_radioLife (s : State) (l : CanLife) : (s.setCanLife l).radioLife = s.radioLife := rfl
@[simp] theorem State.setCanLife_canLife (s : State) (l : CanLife) : (s.setCanLife l).canLife = l := rfl
@[simp] theorem State.setCanLife_canMode (s : State) (l : CanLife) : (s.setCanLife l).canMode = s.canMode := rfl
@[simp] theorem State.setCanLife_rwHazard (s : State) (l : CanLife) : (s.setCanLife l).rwHazard = s.rwHazard := rfl
@[simp] theorem State.setCanLife_lastStatus (s : State) (l : CanLife) : (s.setCanLife l).lastStatus = s.lastStatus := rfl
@[simp] theorem State.setCanLife_encBuf (s : State) (l : CanLife) : (s.setCanLife l).encBuf = s.encBuf := rfl
@[simp] theorem State.setCanLife_faults (s : State) (l : CanLife) : (s.setCanLife l).faults = s.faults := rfl
@[simp] theorem State.setCanLife_csRadio (s : State) (l : CanLife) : (s.setCanLife l).csRadio = s.csRadio := rfl
@[simp] theorem State.setCanLife_csCan (s : State) (l : CanLife) : (s.setCanLife l).csCan = s.csCan := rfl
@[simp] theorem State.setCanLife_resetLine (s : State) (l : CanLife) : (s.setCanLife l).resetLine = s.resetLine := rfl
@[simp] theorem State.setCanLife_ledLine (s : State) (l : CanLife) : (s.setCanLife l).ledLine = s.ledLine := rfl
@[simp] theorem State.setCanLife_params (s : State) (l : CanLife) : (s.setCanLife l).params = s.params := rfl
@[simp] theorem State.setCanLife_inbox (s : State) (l : CanLife) : (s.setCanLife l).inbox = s.inbox := rfl
@[simp] theorem State.setCanLife_outbox (s : State) (l : CanLife) : (s.setCanLife l).outbox = s.outbox := rfl
@[simp] theorem State.setCanLife_trace (s : State) (l : CanLife) : (s.setCanLife l).trace = s.trace := rfl
@[simp] theorem State.setCanLife_replies (s : State) (l : CanLife) : (s.setCanLife l).replies = s.replies := rfl
@[simp] theorem State.setCanLife_draws (s : State) (l : CanLife) : (s.setCanLife l).draws = s.draws := rfl

/-! ## State.setCanMode -/

@[simp] theorem State.setCanMode_radioState (s : State) (m : BitVec 3) : (s.setCanMode m).radioState = s.radioState := rfl
@[simp] theorem State.setCanMode_radioLife (s : State) (m : BitVec 3) : (s.setCanMode m).radioLife = s.radioLife := rfl
@[simp] theorem State.setCanMode_canLife (s : State) (m : BitVec 3) : (s.setCanMode m).canLife = s.canLife := rfl
@[simp] theorem State.setCanMode_canMode (s : State) (m : BitVec 3) : (s.setCanMode m).canMode = m := rfl
@[simp] theorem State.setCanMode_rwHazard (s : State) (m : BitVec 3) : (s.setCanMode m).rwHazard = s.rwHazard := rfl
@[simp] theorem State.setCanMode_lastStatus (s : State) (m : BitVec 3) : (s.setCanMode m).lastStatus = s.lastStatus := rfl
@[simp] theorem State.setCanMode_encBuf (s : State) (m : BitVec 3) : (s.setCanMode m).encBuf = s.encBuf := rfl
@[simp] theorem State.setCanMode_faults (s : State) (m : BitVec 3) : (s.setCanMode m).faults = s.faults := rfl
@[simp] theorem State.setCanMode_csRadio (s : State) (m : BitVec 3) : (s.setCanMode m).csRadio = s.csRadio := rfl
@[simp] theorem State.setCanMode_csCan (s : State) (m : BitVec 3) : (s.setCanMode m).csCan = s.csCan := rfl
@[simp] theorem State.setCanMode_resetLine (s : State) (m : BitVec 3) : (s.setCanMode m).resetLine = s.resetLine := rfl
@[simp] theorem State.setCanMode_ledLine (s : State) (m : BitVec 3) : (s.setCanMode m).ledLine = s.ledLine := rfl
@[simp] theorem State.setCanMode_params (s : State) (m : BitVec 3) : (s.setCanMode m).params = s.params := rfl
@[simp] theorem State.setCanMode_inbox (s : State) (m : BitVec 3) : (s.setCanMode m).inbox = s.inbox := rfl
@[simp] theorem State.setCanMode_outbox (s : State) (m : BitVec 3) : (s.setCanMode m).outbox = s.outbox := rfl
@[simp] theorem State.setCanMode_trace (s : State) (m : BitVec 3) : (s.setCanMode m).trace = s.trace := rfl
@[simp] theorem State.setCanMode_replies (s : State) (m : BitVec 3) : (s.setCanMode m).replies = s.replies := rfl
@[simp] theorem State.setCanMode_draws (s : State) (m : BitVec 3) : (s.setCanMode m).draws = s.draws := rfl

/-! ## State.raiseHazard -/

@[simp] theorem State.raiseHazard_radioState (s : State) : (s.raiseHazard).radioState = s.radioState := rfl
@[simp] theorem State.raiseHazard_radioLife (s : State) : (s.raiseHazard).radioLife = s.radioLife := rfl
@[simp] theorem State.raiseHazard_canLife (s : State) : (s.raiseHazard).canLife = s.canLife := rfl
@[simp] theorem State.raiseHazard_canMode (s : State) : (s.raiseHazard).canMode = s.canMode := rfl
@[simp] theorem State.raiseHazard_rwHazard (s : State) : (s.raiseHazard).rwHazard = true := rfl
@[simp] theorem State.raiseHazard_lastStatus (s : State) : (s.raiseHazard).lastStatus = s.lastStatus := rfl
@[simp] theorem State.raiseHazard_encBuf (s : State) : (s.raiseHazard).encBuf = s.encBuf := rfl
@[simp] theorem State.raiseHazard_faults (s : State) : (s.raiseHazard).faults = s.faults := rfl
@[simp] theorem State.raiseHazard_csRadio (s : State) : (s.raiseHazard).csRadio = s.csRadio := rfl
@[simp] theorem State.raiseHazard_csCan (s : State) : (s.raiseHazard).csCan = s.csCan := rfl
@[simp] theorem State.raiseHazard_resetLine (s : State) : (s.raiseHazard).resetLine = s.resetLine := rfl
@[simp] theorem State.raiseHazard_ledLine (s : State) : (s.raiseHazard).ledLine = s.ledLine := rfl
@[simp] theorem State.raiseHazard_params (s : State) : (s.raiseHazard).params = s.params := rfl
@[simp] theorem State.raiseHazard_inbox (s : State) : (s.raiseHazard).inbox = s.inbox := rfl
@[simp] theorem State.raiseHazard_outbox (s : State) : (s.raiseHazard).outbox = s.outbox := rfl
@[simp] theorem State.raiseHazard_trace (s : State) : (s.raiseHazard).trace = s.trace := rfl
@[simp] theorem State.raiseHazard_replies (s : State) : (s.raiseHazard).replies = s.replies := rfl
@[simp] theorem State.raiseHazard_draws (s : State) : (s.raiseHazard).draws = s.draws := rfl

/-! ## State.setEncBuf -/

@[simp] theorem State.setEncBuf_radioState (s : State) (bs : List Byte) : (s.setEncBuf bs).radioState = s.radioState := rfl
@[simp] theorem State.setEncBuf_radioLife (s : State) (bs : List Byte) : (s.setEncBuf bs).radioLife = s.radioLife := rfl
@[simp] theorem State.setEncBuf_canLife (s : State) (bs : List Byte) : (s.setEncBuf bs).canLife = s.canLife := rfl
@[simp] theorem State.setEncBuf_canMode (s : State) (bs : List Byte) : (s.setEncBuf bs).canMode = s.canMode := rfl
@[simp] theorem State.setEncBuf_rwHazard (s : State) (bs : List Byte) : (s.setEncBuf bs).rwHazard = s.rwHazard := rfl
@[simp] theorem State.setEncBuf_lastStatus (s : State) (bs : List Byte) : (s.setEncBuf bs).lastStatus = s.lastStatus := rfl
@[simp] theorem State.setEncBuf_encBuf (s : State) (bs : List Byte) : (s.setEncBuf bs).encBuf = bs := rfl
@[simp] theorem State.setEncBuf_faults (s : State) (bs : List Byte) : (s.setEncBuf bs).faults = s.faults := rfl
@[simp] theorem State.setEncBuf_csRadio (s : State) (bs : List Byte) : (s.setEncBuf bs).csRadio = s.csRadio := rfl
@[simp] theorem State.setEncBuf_csCan (s : State) (bs : List Byte) : (s.setEncBuf bs).csCan = s.csCan := rfl
@[simp] theorem State.setEncBuf_resetLine (s : State) (bs : List Byte) : (s.setEncBuf bs).resetLine = s.resetLine := rfl
@[simp] theorem State.setEncBuf_ledLine (s : State) (bs : List Byte) : (s.setEncBuf bs).ledLine = s.ledLine := rfl
@[simp] theorem State.setEncBuf_params (s : State) (bs : List Byte) : (s.setEncBuf bs).params = s.params := rfl
@[simp] theorem State.setEncBuf_inbox (s : State) (bs : List Byte) : (s.setEncBuf bs).inbox = s.inbox := rfl
@[simp] theorem State.setEncBuf_outbox (s : State) (bs : List Byte) : (s.setEncBuf bs).outbox = s.outbox := rfl
@[simp] theorem State.setEncBuf_trace (s : State) (bs : List Byte) : (s.setEncBuf bs).trace = s.trace := rfl
@[simp] theorem State.setEncBuf_replies (s : State) (bs : List Byte) : (s.setEncBuf bs).replies = s.replies := rfl
@[simp] theorem State.setEncBuf_draws (s : State) (bs : List Byte) : (s.setEncBuf bs).draws = s.draws := rfl

/-! ## State.logged -/

@[simp] theorem State.logged_radioState (s : State) (e : Event) : (s.logged e).radioState = s.radioState := rfl
@[simp] theorem State.logged_radioLife (s : State) (e : Event) : (s.logged e).radioLife = s.radioLife := rfl
@[simp] theorem State.logged_canLife (s : State) (e : Event) : (s.logged e).canLife = s.canLife := rfl
@[simp] theorem State.logged_canMode (s : State) (e : Event) : (s.logged e).canMode = s.canMode := rfl
@[simp] theorem State.logged_rwHazard (s : State) (e : Event) : (s.logged e).rwHazard = s.rwHazard := rfl
@[simp] theorem State.logged_lastStatus (s : State) (e : Event) : (s.logged e).lastStatus = s.lastStatus := rfl
@[simp] theorem State.logged_encBuf (s : State) (e : Event) : (s.logged e).encBuf = s.encBuf := rfl
@[simp] theorem State.logged_faults (s : State) (e : Event) : (s.logged e).faults = s.faults := rfl
@[simp] theorem State.logged_csRadio (s : State) (e : Event) : (s.logged e).csRadio = s.csRadio := rfl
@[simp] theorem State.logged_csCan (s : State) (e : Event) : (s.logged e).csCan = s.csCan := rfl
@[simp] theorem State.logged_resetLine (s : State) (e : Event) : (s.logged e).resetLine = s.resetLine := rfl
@[simp] theorem State.logged_ledLine (s : State) (e : Event) : (s.logged e).ledLine = s.ledLine := rfl
@[simp] theorem State.logged_params (s : State) (e : Event) : (s.logged e).params = s.params := rfl
@[simp] theorem State.logged_inbox (s : State) (e : Event) : (s.logged e).inbox = s.inbox := rfl
@[simp] theorem State.logged_outbox (s : State) (e : Event) : (s.logged e).outbox = s.outbox := rfl
@[simp] theorem State.logged_trace (s : State) (e : Event) : (s.logged e).trace = s.trace ++ [e] := rfl
@[simp] theorem State.logged_replies (s : State) (e : Event) : (s.logged e).replies = s.replies := rfl
@[simp] theorem State.logged_draws (s : State) (e : Event) : (s.logged e).draws = s.draws := rfl

/-! ## State.drewAnswer -/

@[simp] theorem State.drewAnswer_radioState (s : State) : (s.drewAnswer).radioState = s.radioState := rfl
@[simp] theorem State.drewAnswer_radioLife (s : State) : (s.drewAnswer).radioLife = s.radioLife := rfl
@[simp] theorem State.drewAnswer_canLife (s : State) : (s.drewAnswer).canLife = s.canLife := rfl
@[simp] theorem State.drewAnswer_canMode (s : State) : (s.drewAnswer).canMode = s.canMode := rfl
@[simp] theorem State.drewAnswer_rwHazard (s : State) : (s.drewAnswer).rwHazard = s.rwHazard := rfl
@[simp] theorem State.drewAnswer_lastStatus (s : State) : (s.drewAnswer).lastStatus = s.lastStatus := rfl
@[simp] theorem State.drewAnswer_encBuf (s : State) : (s.drewAnswer).encBuf = s.encBuf := rfl
@[simp] theorem State.drewAnswer_faults (s : State) : (s.drewAnswer).faults = s.faults := rfl
@[simp] theorem State.drewAnswer_csRadio (s : State) : (s.drewAnswer).csRadio = s.csRadio := rfl
@[simp] theorem State.drewAnswer_csCan (s : State) : (s.drewAnswer).csCan = s.csCan := rfl
@[simp] theorem State.drewAnswer_resetLine (s : State) : (s.drewAnswer).resetLine = s.resetLine := rfl
@[simp] theorem State.drewAnswer_ledLine (s : State) : (s.drewAnswer).ledLine = s.ledLine := rfl
@[simp] theorem State.drewAnswer_params (s : State) : (s.drewAnswer).params = s.params := rfl
@[simp] theorem State.drewAnswer_inbox (s : State) : (s.drewAnswer).inbox = s.inbox := rfl
@[simp] theorem State.drewAnswer_outbox (s : State) : (s.drewAnswer).outbox = s.outbox := rfl
@[simp] theorem State.drewAnswer_trace (s : State) : (s.drewAnswer).trace = s.trace := rfl
@[simp] theorem State.drewAnswer_replies (s : State) : (s.drewAnswer).replies = s.replies.tail := rfl
@[simp] theorem State.drewAnswer_draws (s : State) : (s.drewAnswer).draws = s.draws + 1 := rfl

/-! ## State.answered -/

@[simp] theorem State.answered_radioState (s : State) (o : Output) : (s.answered o).radioState = s.radioState := rfl
@[simp] theorem State.answered_radioLife (s : State) (o : Output) : (s.answered o).radioLife = s.radioLife := rfl
@[simp] theorem State.answered_canLife (s : State) (o : Output) : (s.answered o).canLife = s.canLife := rfl
@[simp] theorem State.answered_canMode (s : State) (o : Output) : (s.answered o).canMode = s.canMode := rfl
@[simp] theorem State.answered_rwHazard (s : State) (o : Output) : (s.answered o).rwHazard = s.rwHazard := rfl
@[simp] theorem State.answered_lastStatus (s : State) (o : Output) : (s.answered o).lastStatus = s.lastStatus := rfl
@[simp] theorem State.answered_encBuf (s : State) (o : Output) : (s.answered o).encBuf = s.encBuf := rfl
@[simp] theorem State.answered_faults (s : State) (o : Output) : (s.answered o).faults = s.faults := rfl
@[simp] theorem State.answered_csRadio (s : State) (o : Output) : (s.answered o).csRadio = s.csRadio := rfl
@[simp] theorem State.answered_csCan (s : State) (o : Output) : (s.answered o).csCan = s.csCan := rfl
@[simp] theorem State.answered_resetLine (s : State) (o : Output) : (s.answered o).resetLine = s.resetLine := rfl
@[simp] theorem State.answered_ledLine (s : State) (o : Output) : (s.answered o).ledLine = s.ledLine := rfl
@[simp] theorem State.answered_params (s : State) (o : Output) : (s.answered o).params = s.params := rfl
@[simp] theorem State.answered_inbox (s : State) (o : Output) : (s.answered o).inbox = s.inbox := rfl
@[simp] theorem State.answered_outbox (s : State) (o : Output) : (s.answered o).outbox = s.outbox ++ [o] := rfl
@[simp] theorem State.answered_trace (s : State) (o : Output) : (s.answered o).trace = s.trace := rfl
@[simp] theorem State.answered_replies (s : State) (o : Output) : (s.answered o).replies = s.replies := rfl
@[simp] theorem State.answered_draws (s : State) (o : Output) : (s.answered o).draws = s.draws := rfl

/-! ## State.setInbox -/

@[simp] theorem State.setInbox_radioState (s : State) (is : List Input) : (s.setInbox is).radioState = s.radioState := rfl
@[simp] theorem State.setInbox_radioLife (s : State) (is : List Input) : (s.setInbox is).radioLife = s.radioLife := rfl
@[simp] theorem State.setInbox_canLife (s : State) (is : List Input) : (s.setInbox is).canLife = s.canLife := rfl
@[simp] theorem State.setInbox_canMode (s : State) (is : List Input) : (s.setInbox is).canMode = s.canMode := rfl
@[simp] theorem State.setInbox_rwHazard (s : State) (is : List Input) : (s.setInbox is).rwHazard = s.rwHazard := rfl
@[simp] theorem State.setInbox_lastStatus (s : State) (is : List Input) : (s.setInbox is).lastStatus = s.lastStatus := rfl
@[simp] theorem State.setInbox_encBuf (s : State) (is : List Input) : (s.setInbox is).encBuf = s.encBuf := rfl
@[simp] theorem State.setInbox_faults (s : State) (is : List Input) : (s.setInbox is).faults = s.faults := rfl
@[simp] theorem State.setInbox_csRadio (s : State) (is : List Input) : (s.setInbox is).csRadio = s.csRadio := rfl
@[simp] theorem State.setInbox_csCan (s : State) (is : List Input) : (s.setInbox is).csCan = s.csCan := rfl
@[simp] theorem State.setInbox_resetLine (s : State) (is : List Input) : (s.setInbox is).resetLine = s.resetLine := rfl
@[simp] theorem State.setInbox_ledLine (s : State) (is : List Input) : (s.setInbox is).ledLine = s.ledLine := rfl
@[simp] theorem State.setInbox_params (s : State) (is : List Input) : (s.setInbox is).params = s.params := rfl
@[simp] theorem State.setInbox_inbox (s : State) (is : List Input) : (s.setInbox is).inbox = is := rfl
@[simp] theorem State.setInbox_outbox (s : State) (is : List Input) : (s.setInbox is).outbox = s.outbox := rfl
@[simp] theorem State.setInbox_trace (s : State) (is : List Input) : (s.setInbox is).trace = s.trace := rfl
@[simp] theorem State.setInbox_replies (s : State) (is : List Input) : (s.setInbox is).replies = s.replies := rfl
@[simp] theorem State.setInbox_draws (s : State) (is : List Input) : (s.setInbox is).draws = s.draws := rfl

/-! ## State.ended -/

@[simp] theorem State.ended_radioState (s : State) (st : Status) (data : List Byte) : (s.ended st data).radioState = s.radioState := rfl
@[simp] theorem State.ended_radioLife (s : State) (st : Status) (data : List Byte) : (s.ended st data).radioLife = s.radioLife := rfl
@[simp] theorem State.ended_canLife (s : State) (st : Status) (data : List Byte) : (s.ended st data).canLife = s.canLife := rfl
@[simp] theorem State.ended_canMode (s : State) (st : Status) (data : List Byte) : (s.ended st data).canMode = s.canMode := rfl
@[simp] theorem State.ended_rwHazard (s : State) (st : Status) (data : List Byte) : (s.ended st data).rwHazard = s.rwHazard := rfl
@[simp] theorem State.ended_lastStatus (s : State) (st : Status) (data : List Byte) : (s.ended st data).lastStatus = st.code := rfl
@[simp] theorem State.ended_encBuf (s : State) (st : Status) (data : List Byte) : (s.ended st data).encBuf = s.encBuf := rfl
@[simp] theorem State.ended_faults (s : State) (st : Status) (data : List Byte) : (s.ended st data).faults = recordFault s.faults st := rfl
@[simp] theorem State.ended_csRadio (s : State) (st : Status) (data : List Byte) : (s.ended st data).csRadio = s.csRadio := rfl
@[simp] theorem State.ended_csCan (s : State) (st : Status) (data : List Byte) : (s.ended st data).csCan = s.csCan := rfl
@[simp] theorem State.ended_resetLine (s : State) (st : Status) (data : List Byte) : (s.ended st data).resetLine = s.resetLine := rfl
@[simp] theorem State.ended_ledLine (s : State) (st : Status) (data : List Byte) : (s.ended st data).ledLine = s.ledLine := rfl
@[simp] theorem State.ended_params (s : State) (st : Status) (data : List Byte) : (s.ended st data).params = s.params := rfl
@[simp] theorem State.ended_inbox (s : State) (st : Status) (data : List Byte) : (s.ended st data).inbox = s.inbox := rfl
@[simp] theorem State.ended_outbox (s : State) (st : Status) (data : List Byte) : (s.ended st data).outbox = s.outbox ++ [.result st.code data] := rfl
@[simp] theorem State.ended_trace (s : State) (st : Status) (data : List Byte) : (s.ended st data).trace = s.trace := rfl
@[simp] theorem State.ended_replies (s : State) (st : Status) (data : List Byte) : (s.ended st data).replies = s.replies := rfl
@[simp] theorem State.ended_draws (s : State) (st : Status) (data : List Byte) : (s.ended st data).draws = s.draws := rfl

/-! ## State.setSelect -/

@[simp] theorem State.setSelect_radioState (s : State) (d : Device) (v : Bool) : (s.setSelect d v).radioState = s.radioState := by
  cases d <;> rfl
@[simp] theorem State.setSelect_radioLife (s : State) (d : Device) (v : Bool) : (s.setSelect d v).radioLife = s.radioLife := by
  cases d <;> rfl
@[simp] theorem State.setSelect_canLife (s : State) (d : Device) (v : Bool) : (s.setSelect d v).canLife = s.canLife := by
  cases d <;> rfl
@[simp] theorem State.setSelect_canMode (s : State) (d : Device) (v : Bool) : (s.setSelect d v).canMode = s.canMode := by
  cases d <;> rfl
@[simp] theorem State.setSelect_rwHazard (s : State) (d : Device) (v : Bool) : (s.setSelect d v).rwHazard = s.rwHazard := by
  cases d <;> rfl
@[simp] theorem State.setSelect_lastStatus (s : State) (d : Device) (v : Bool) : (s.setSelect d v).lastStatus = s.lastStatus := by
  cases d <;> rfl
@[simp] theorem State.setSelect_encBuf (s : State) (d : Device) (v : Bool) : (s.setSelect d v).encBuf = s.encBuf := by
  cases d <;> rfl
@[simp] theorem State.setSelect_faults (s : State) (d : Device) (v : Bool) : (s.setSelect d v).faults = s.faults := by
  cases d <;> rfl
@[simp] theorem State.setSelect_csRadio_radio (s : State) (v : Bool) : (s.setSelect .radio v).csRadio = v := rfl
@[simp] theorem State.setSelect_csRadio_can (s : State) (v : Bool) : (s.setSelect .can v).csRadio = s.csRadio := rfl
@[simp] theorem State.setSelect_csCan_can (s : State) (v : Bool) : (s.setSelect .can v).csCan = v := rfl
@[simp] theorem State.setSelect_csCan_radio (s : State) (v : Bool) : (s.setSelect .radio v).csCan = s.csCan := rfl
@[simp] theorem State.setSelect_resetLine (s : State) (d : Device) (v : Bool) : (s.setSelect d v).resetLine = s.resetLine := by
  cases d <;> rfl
@[simp] theorem State.setSelect_ledLine (s : State) (d : Device) (v : Bool) : (s.setSelect d v).ledLine = s.ledLine := by
  cases d <;> rfl
@[simp] theorem State.setSelect_params (s : State) (d : Device) (v : Bool) : (s.setSelect d v).params = s.params := by
  cases d <;> rfl
@[simp] theorem State.setSelect_inbox (s : State) (d : Device) (v : Bool) : (s.setSelect d v).inbox = s.inbox := by
  cases d <;> rfl
@[simp] theorem State.setSelect_outbox (s : State) (d : Device) (v : Bool) : (s.setSelect d v).outbox = s.outbox := by
  cases d <;> rfl
@[simp] theorem State.setSelect_trace (s : State) (d : Device) (v : Bool) : (s.setSelect d v).trace = s.trace := by
  cases d <;> rfl
@[simp] theorem State.setSelect_replies (s : State) (d : Device) (v : Bool) : (s.setSelect d v).replies = s.replies := by
  cases d <;> rfl
@[simp] theorem State.setSelect_draws (s : State) (d : Device) (v : Bool) : (s.setSelect d v).draws = s.draws := by
  cases d <;> rfl

/-! ## State.setLine -/

@[simp] theorem State.setLine_radioState (s : State) (l : Line) (v : Bool) : (s.setLine l v).radioState = s.radioState := by
  cases l <;> rfl
@[simp] theorem State.setLine_radioLife (s : State) (l : Line) (v : Bool) : (s.setLine l v).radioLife = s.radioLife := by
  cases l <;> rfl
@[simp] theorem State.setLine_canLife (s : State) (l : Line) (v : Bool) : (s.setLine l v).canLife = s.canLife := by
  cases l <;> rfl
@[simp] theorem State.setLine_canMode (s : State) (l : Line) (v : Bool) : (s.setLine l v).canMode = s.canMode := by
  cases l <;> rfl
@[simp] theorem State.setLine_rwHazard (s : State) (l : Line) (v : Bool) : (s.setLine l v).rwHazard = s.rwHazard := by
  cases l <;> rfl
@[simp] theorem State.setLine_lastStatus (s : State) (l : Line) (v : Bool) : (s.setLine l v).lastStatus = s.lastStatus := by
  cases l <;> rfl
@[simp] theorem State.setLine_encBuf (s : State) (l : Line) (v : Bool) : (s.setLine l v).encBuf = s.encBuf := by
  cases l <;> rfl
@[simp] theorem State.setLine_faults (s : State) (l : Line) (v : Bool) : (s.setLine l v).faults = s.faults := by
  cases l <;> rfl
@[simp] theorem State.setLine_csRadio (s : State) (l : Line) (v : Bool) : (s.setLine l v).csRadio = s.csRadio := by
  cases l <;> rfl
@[simp] theorem State.setLine_csCan (s : State) (l : Line) (v : Bool) : (s.setLine l v).csCan = s.csCan := by
  cases l <;> rfl
@[simp] theorem State.setLine_resetLine_reset (s : State) (v : Bool) : (s.setLine .reset v).resetLine = v := rfl
@[simp] theorem State.setLine_resetLine_led (s : State) (v : Bool) : (s.setLine .led v).resetLine = s.resetLine := rfl
@[simp] theorem State.setLine_ledLine_led (s : State) (v : Bool) : (s.setLine .led v).ledLine = v := rfl
@[simp] theorem State.setLine_ledLine_reset (s : State) (v : Bool) : (s.setLine .reset v).ledLine = s.ledLine := rfl
@[simp] theorem State.setLine_params (s : State) (l : Line) (v : Bool) : (s.setLine l v).params = s.params := by
  cases l <;> rfl
@[simp] theorem State.setLine_inbox (s : State) (l : Line) (v : Bool) : (s.setLine l v).inbox = s.inbox := by
  cases l <;> rfl
@[simp] theorem State.setLine_outbox (s : State) (l : Line) (v : Bool) : (s.setLine l v).outbox = s.outbox := by
  cases l <;> rfl
@[simp] theorem State.setLine_trace (s : State) (l : Line) (v : Bool) : (s.setLine l v).trace = s.trace := by
  cases l <;> rfl
@[simp] theorem State.setLine_replies (s : State) (l : Line) (v : Bool) : (s.setLine l v).replies = s.replies := by
  cases l <;> rfl
@[simp] theorem State.setLine_draws (s : State) (l : Line) (v : Bool) : (s.setLine l v).draws = s.draws := by
  cases l <;> rfl

/-! ## State.hazardChecked -/

@[simp] theorem State.hazardChecked_radioState (s : State) :
    s.hazardChecked.radioState = s.radioState := by
  unfold State.hazardChecked; split <;> rfl
@[simp] theorem State.hazardChecked_radioLife (s : State) :
    s.hazardChecked.radioLife = s.radioLife := by
  unfold State.hazardChecked; split <;> rfl
@[simp] theorem State.hazardChecked_canLife (s : State) :
    s.hazardChecked.canLife = s.canLife := by
  unfold State.hazardChecked; split <;> rfl
@[simp] theorem State.hazardChecked_canMode (s : State) :
    s.hazardChecked.canMode = s.canMode := by
  unfold State.hazardChecked; split <;> rfl
@[simp] theorem State.hazardChecked_rwHazard (s : State) :
    s.hazardChecked.rwHazard =
      (s.rwHazard || !(s.radioState == .sleep || s.radioState == .standby)) := by
  unfold State.hazardChecked
  cases h : s.radioState <;> simp
@[simp] theorem State.hazardChecked_lastStatus (s : State) :
    s.hazardChecked.lastStatus = s.lastStatus := by
  unfold State.hazardChecked; split <;> rfl
@[simp] theorem State.hazardChecked_encBuf (s : State) :
    s.hazardChecked.encBuf = s.encBuf := by
  unfold State.hazardChecked; split <;> rfl
@[simp] theorem State.hazardChecked_faults (s : State) :
    s.hazardChecked.faults = s.faults := by
  unfold State.hazardChecked; split <;> rfl
@[simp] theorem State.hazardChecked_csRadio (s : State) :
    s.hazardChecked.csRadio = s.csRadio := by
  unfold State.hazardChecked; split <;> rfl
@[simp] theorem State.hazardChecked_csCan (s : State) :
    s.hazardChecked.csCan = s.csCan := by
  unfold State.hazardChecked; split <;> rfl
@[simp] theorem State.hazardChecked_resetLine (s : State) :
    s.hazardChecked.resetLine = s.resetLine := by
  unfold State.hazardChecked; split <;> rfl
@[simp] theorem State.hazardChecked_ledLine (s : State) :
    s.hazardChecked.ledLine = s.ledLine := by
  unfold State.hazardChecked; split <;> rfl
@[simp] theorem State.hazardChecked_params (s : State) :
    s.hazardChecked.params = s.params := by
  unfold State.hazardChecked; split <;> rfl
@[simp] theorem State.hazardChecked_inbox (s : State) :
    s.hazardChecked.inbox = s.inbox := by
  unfold State.hazardChecked; split <;> rfl
@[simp] theorem State.hazardChecked_outbox (s : State) :
    s.hazardChecked.outbox = s.outbox := by
  unfold State.hazardChecked; split <;> rfl
@[simp] theorem State.hazardChecked_trace (s : State) :
    s.hazardChecked.trace = s.trace := by
  unfold State.hazardChecked; split <;> rfl
@[simp] theorem State.hazardChecked_replies (s : State) :
    s.hazardChecked.replies = s.replies := by
  unfold State.hazardChecked; split <;> rfl
@[simp] theorem State.hazardChecked_draws (s : State) :
    s.hazardChecked.draws = s.draws := by
  unfold State.hazardChecked; split <;> rfl

/-! ## State.afterTxn -/

@[simp] theorem State.afterTxn_radioState (s : State) (d : Device) (out : List Byte) :
    (s.afterTxn d out).radioState = s.radioState := by
  cases d <;> rfl
@[simp] theorem State.afterTxn_radioLife (s : State) (d : Device) (out : List Byte) :
    (s.afterTxn d out).radioLife = s.radioLife := by
  cases d <;> rfl
@[simp] theorem State.afterTxn_canLife (s : State) (d : Device) (out : List Byte) :
    (s.afterTxn d out).canLife = s.canLife := by
  cases d <;> rfl
@[simp] theorem State.afterTxn_canMode (s : State) (d : Device) (out : List Byte) :
    (s.afterTxn d out).canMode = s.canMode := by
  cases d <;> rfl
@[simp] theorem State.afterTxn_rwHazard (s : State) (d : Device) (out : List Byte) :
    (s.afterTxn d out).rwHazard = s.rwHazard := by
  cases d <;> rfl
@[simp] theorem State.afterTxn_lastStatus (s : State) (d : Device) (out : List Byte) :
    (s.afterTxn d out).lastStatus = s.lastStatus := by
  cases d <;> rfl
@[simp] theorem State.afterTxn_encBuf (s : State) (d : Device) (out : List Byte) :
    (s.afterTxn d out).encBuf = s.encBuf := by
  cases d <;> rfl
@[simp] theorem State.afterTxn_faults (s : State) (d : Device) (out : List Byte) :
    (s.afterTxn d out).faults = s.faults := by
  cases d <;> rfl
@[simp] theorem State.afterTxn_csRadio_radio (s : State) (out : List Byte) :
    (s.afterTxn .radio out).csRadio = false := rfl
@[simp] theorem State.afterTxn_csRadio_can (s : State) (out : List Byte) :
    (s.afterTxn .can out).csRadio = s.csRadio := rfl
@[simp] theorem State.afterTxn_csCan_can (s : State) (out : List Byte) :
    (s.afterTxn .can out).csCan = false := rfl
@[simp] theorem State.afterTxn_csCan_radio (s : State) (out : List Byte) :
    (s.afterTxn .radio out).csCan = s.csCan := rfl
@[simp] theorem State.afterTxn_resetLine (s : State) (d : Device) (out : List Byte) :
    (s.afterTxn d out).resetLine = s.resetLine := by
  cases d <;> rfl
@[simp] theorem State.afterTxn_ledLine (s : State) (d : Device) (out : List Byte) :
    (s.afterTxn d out).ledLine = s.ledLine := by
  cases d <;> rfl
@[simp] theorem State.afterTxn_params (s : State) (d : Device) (out : List Byte) :
    (s.afterTxn d out).params = s.params := by
  cases d <;> rfl
@[simp] theorem State.afterTxn_inbox (s : State) (d : Device) (out : List Byte) :
    (s.afterTxn d out).inbox = s.inbox := by
  cases d <;> rfl
@[simp] theorem State.afterTxn_outbox (s : State) (d : Device) (out : List Byte) :
    (s.afterTxn d out).outbox = s.outbox := by
  cases d <;> rfl
@[simp] theorem State.afterTxn_trace (s : State) (d : Device) (out : List Byte) :
    (s.afterTxn d out).trace = s.trace ++ [.txn d out (s.receivedAt 0 d out)] := by
  cases d <;> rfl
@[simp] theorem State.afterTxn_replies (s : State) (d : Device) (out : List Byte) :
    (s.afterTxn d out).replies = s.replies.tail := by
  cases d <;> rfl
@[simp] theorem State.afterTxn_draws (s : State) (d : Device) (out : List Byte) :
    (s.afterTxn d out).draws = s.draws + 1 := by
  cases d <;> rfl

/-! ## State.coreReset -/

@[simp] theorem State.coreReset_params (s : State) : s.coreReset.params = s.params := rfl
@[simp] theorem State.coreReset_inbox (s : State) : s.coreReset.inbox = s.inbox := rfl
@[simp] theorem State.coreReset_outbox (s : State) : s.coreReset.outbox = s.outbox := rfl
@[simp] theorem State.coreReset_trace (s : State) : s.coreReset.trace = s.trace := rfl
@[simp] theorem State.coreReset_replies (s : State) : s.coreReset.replies = s.replies := rfl
@[simp] theorem State.coreReset_draws (s : State) : s.coreReset.draws = s.draws := rfl

end Sys2Proof.Machine
end

