-- ==== Sys2Proof/Laws/Ops.lean ====
section
/-! SUPPORT. The devices' answers under each update, and for each shared operation what it can do: its
result where the transactions it makes are answered, its cases where they may fail. -/

namespace Sys2Proof.Machine

open Sys2Proof

/-! ## Answers under updates -/

theorem State.answerAt_congr {s t : State} (hr : t.replies = s.replies) (hd : t.draws = s.draws)
    (k : Nat) (d : Device) (out : List Byte) : t.answerAt k d out = s.answerAt k d out := by
  unfold State.answerAt
  rw [hr, hd]

theorem State.receivedAt_congr {s t : State} (hr : t.replies = s.replies) (hd : t.draws = s.draws)
    (k : Nat) (d : Device) (out : List Byte) : t.receivedAt k d out = s.receivedAt k d out := by
  unfold State.receivedAt
  rw [State.answerAt_congr hr hd, hd]

theorem State.readAt_congr {s t : State} (hr : t.replies = s.replies) (hd : t.draws = s.draws)
    (hp : t.params = s.params) (k : Nat) (d : Device) (a : Byte) : t.readAt k d a = s.readAt k d a := by
  unfold State.readAt
  rw [State.receivedAt_congr hr hd, hp]

@[simp] theorem State.setRadioState_answerAt (s : State) (m : RadioState) (k : Nat) (d : Device) (out : List Byte) :
    (s.setRadioState m).answerAt k d out = s.answerAt k d out :=
  State.answerAt_congr (by simp) (by simp) k d out
@[simp] theorem State.setRadioState_receivedAt (s : State) (m : RadioState) (k : Nat) (d : Device) (out : List Byte) :
    (s.setRadioState m).receivedAt k d out = s.receivedAt k d out :=
  State.receivedAt_congr (by simp) (by simp) k d out
@[simp] theorem State.setRadioState_readAt (s : State) (m : RadioState) (k : Nat) (d : Device) (b : Byte) :
    (s.setRadioState m).readAt k d b = s.readAt k d b :=
  State.readAt_congr (by simp) (by simp) (by simp) k d b
@[simp] theorem State.setRadioLife_answerAt (s : State) (l : RadioLife) (k : Nat) (d : Device) (out : List Byte) :
    (s.setRadioLife l).answerAt k d out = s.answerAt k d out :=
  State.answerAt_congr (by simp) (by simp) k d out
@[simp] theorem State.setRadioLife_receivedAt (s : State) (l : RadioLife) (k : Nat) (d : Device) (out : List Byte) :
    (s.setRadioLife l).receivedAt k d out = s.receivedAt k d out :=
  State.receivedAt_congr (by simp) (by simp) k d out
@[simp] theorem State.setRadioLife_readAt (s : State) (l : RadioLife) (k : Nat) (d : Device) (b : Byte) :
    (s.setRadioLife l).readAt k d b = s.readAt k d b :=
  State.readAt_congr (by simp) (by simp) (by simp) k d b
@[simp] theorem State.setCanLife_answerAt (s : State) (l : CanLife) (k : Nat) (d : Device) (out : List Byte) :
    (s.setCanLife l).answerAt k d out = s.answerAt k d out :=
  State.answerAt_congr (by simp) (by simp) k d out
@[simp] theorem State.setCanLife_receivedAt (s : State) (l : CanLife) (k : Nat) (d : Device) (out : List Byte) :
    (s.setCanLife l).receivedAt k d out = s.receivedAt k d out :=
  State.receivedAt_congr (by simp) (by simp) k d out
@[simp] theorem State.setCanLife_readAt (s : State) (l : CanLife) (k : Nat) (d : Device) (b : Byte) :
    (s.setCanLife l).readAt k d b = s.readAt k d b :=
  State.readAt_congr (by simp) (by simp) (by simp) k d b
@[simp] theorem State.setCanMode_answerAt (s : State) (m : BitVec 3) (k : Nat) (d : Device) (out : List Byte) :
    (s.setCanMode m).answerAt k d out = s.answerAt k d out :=
  State.answerAt_congr (by simp) (by simp) k d out
@[simp] theorem State.setCanMode_receivedAt (s : State) (m : BitVec 3) (k : Nat) (d : Device) (out : List Byte) :
    (s.setCanMode m).receivedAt k d out = s.receivedAt k d out :=
  State.receivedAt_congr (by simp) (by simp) k d out
@[simp] theorem State.setCanMode_readAt (s : State) (m : BitVec 3) (k : Nat) (d : Device) (b : Byte) :
    (s.setCanMode m).readAt k d b = s.readAt k d b :=
  State.readAt_congr (by simp) (by simp) (by simp) k d b
@[simp] theorem State.raiseHazard_answerAt (s : State) (k : Nat) (d : Device) (out : List Byte) :
    (s.raiseHazard).answerAt k d out = s.answerAt k d out :=
  State.answerAt_congr (by simp) (by simp) k d out
@[simp] theorem State.raiseHazard_receivedAt (s : State) (k : Nat) (d : Device) (out : List Byte) :
    (s.raiseHazard).receivedAt k d out = s.receivedAt k d out :=
  State.receivedAt_congr (by simp) (by simp) k d out
@[simp] theorem State.raiseHazard_readAt (s : State) (k : Nat) (d : Device) (b : Byte) :
    (s.raiseHazard).readAt k d b = s.readAt k d b :=
  State.readAt_congr (by simp) (by simp) (by simp) k d b
@[simp] theorem State.setEncBuf_answerAt (s : State) (bs : List Byte) (k : Nat) (d : Device) (out : List Byte) :
    (s.setEncBuf bs).answerAt k d out = s.answerAt k d out :=
  State.answerAt_congr (by simp) (by simp) k d out
@[simp] theorem State.setEncBuf_receivedAt (s : State) (bs : List Byte) (k : Nat) (d : Device) (out : List Byte) :
    (s.setEncBuf bs).receivedAt k d out = s.receivedAt k d out :=
  State.receivedAt_congr (by simp) (by simp) k d out
@[simp] theorem State.setEncBuf_readAt (s : State) (bs : List Byte) (k : Nat) (d : Device) (b : Byte) :
    (s.setEncBuf bs).readAt k d b = s.readAt k d b :=
  State.readAt_congr (by simp) (by simp) (by simp) k d b
@[simp] theorem State.logged_answerAt (s : State) (e : Event) (k : Nat) (d : Device) (out : List Byte) :
    (s.logged e).answerAt k d out = s.answerAt k d out :=
  State.answerAt_congr (by simp) (by simp) k d out
@[simp] theorem State.logged_receivedAt (s : State) (e : Event) (k : Nat) (d : Device) (out : List Byte) :
    (s.logged e).receivedAt k d out = s.receivedAt k d out :=
  State.receivedAt_congr (by simp) (by simp) k d out
@[simp] theorem State.logged_readAt (s : State) (e : Event) (k : Nat) (d : Device) (b : Byte) :
    (s.logged e).readAt k d b = s.readAt k d b :=
  State.readAt_congr (by simp) (by simp) (by simp) k d b
@[simp] theorem State.answered_answerAt (s : State) (o : Output) (k : Nat) (d : Device) (out : List Byte) :
    (s.answered o).answerAt k d out = s.answerAt k d out :=
  State.answerAt_congr (by simp) (by simp) k d out
@[simp] theorem State.answered_receivedAt (s : State) (o : Output) (k : Nat) (d : Device) (out : List Byte) :
    (s.answered o).receivedAt k d out = s.receivedAt k d out :=
  State.receivedAt_congr (by simp) (by simp) k d out
@[simp] theorem State.answered_readAt (s : State) (o : Output) (k : Nat) (d : Device) (b : Byte) :
    (s.answered o).readAt k d b = s.readAt k d b :=
  State.readAt_congr (by simp) (by simp) (by simp) k d b
@[simp] theorem State.setInbox_answerAt (s : State) (is : List Input) (k : Nat) (d : Device) (out : List Byte) :
    (s.setInbox is).answerAt k d out = s.answerAt k d out :=
  State.answerAt_congr (by simp) (by simp) k d out
@[simp] theorem State.setInbox_receivedAt (s : State) (is : List Input) (k : Nat) (d : Device) (out : List Byte) :
    (s.setInbox is).receivedAt k d out = s.receivedAt k d out :=
  State.receivedAt_congr (by simp) (by simp) k d out
@[simp] theorem State.setInbox_readAt (s : State) (is : List Input) (k : Nat) (d : Device) (b : Byte) :
    (s.setInbox is).readAt k d b = s.readAt k d b :=
  State.readAt_congr (by simp) (by simp) (by simp) k d b
@[simp] theorem State.ended_answerAt (s : State) (st : Status) (data : List Byte) (k : Nat) (d : Device) (out : List Byte) :
    (s.ended st data).answerAt k d out = s.answerAt k d out :=
  State.answerAt_congr (by simp) (by simp) k d out
@[simp] theorem State.ended_receivedAt (s : State) (st : Status) (data : List Byte) (k : Nat) (d : Device) (out : List Byte) :
    (s.ended st data).receivedAt k d out = s.receivedAt k d out :=
  State.receivedAt_congr (by simp) (by simp) k d out
@[simp] theorem State.ended_readAt (s : State) (st : Status) (data : List Byte) (k : Nat) (d : Device) (b : Byte) :
    (s.ended st data).readAt k d b = s.readAt k d b :=
  State.readAt_congr (by simp) (by simp) (by simp) k d b
@[simp] theorem State.setLine_answerAt (s : State) (l : Line) (v : Bool) (k : Nat) (d : Device) (out : List Byte) :
    (s.setLine l v).answerAt k d out = s.answerAt k d out :=
  State.answerAt_congr (by simp) (by simp) k d out
@[simp] theorem State.setLine_receivedAt (s : State) (l : Line) (v : Bool) (k : Nat) (d : Device) (out : List Byte) :
    (s.setLine l v).receivedAt k d out = s.receivedAt k d out :=
  State.receivedAt_congr (by simp) (by simp) k d out
@[simp] theorem State.setLine_readAt (s : State) (l : Line) (v : Bool) (k : Nat) (d : Device) (b : Byte) :
    (s.setLine l v).readAt k d b = s.readAt k d b :=
  State.readAt_congr (by simp) (by simp) (by simp) k d b
@[simp] theorem State.hazardChecked_answerAt (s : State) (k : Nat) (d : Device) (out : List Byte) :
    (s.hazardChecked).answerAt k d out = s.answerAt k d out :=
  State.answerAt_congr (by simp) (by simp) k d out
@[simp] theorem State.hazardChecked_receivedAt (s : State) (k : Nat) (d : Device) (out : List Byte) :
    (s.hazardChecked).receivedAt k d out = s.receivedAt k d out :=
  State.receivedAt_congr (by simp) (by simp) k d out
@[simp] theorem State.hazardChecked_readAt (s : State) (k : Nat) (d : Device) (b : Byte) :
    (s.hazardChecked).readAt k d b = s.readAt k d b :=
  State.readAt_congr (by simp) (by simp) (by simp) k d b

@[simp] theorem State.afterTxn_answerAt (s : State) (d : Device) (out : List Byte) (k : Nat)
    (d' : Device) (out' : List Byte) :
    (s.afterTxn d out).answerAt k d' out' = s.answerAt (k + 1) d' out' := by
  unfold State.answerAt
  rw [State.afterTxn_replies, State.afterTxn_draws, List.getElem?_tail,
    show s.draws + 1 + k = s.draws + (k + 1) by omega]

@[simp] theorem State.afterTxn_receivedAt (s : State) (d : Device) (out : List Byte) (k : Nat)
    (d' : Device) (out' : List Byte) :
    (s.afterTxn d out).receivedAt k d' out' = s.receivedAt (k + 1) d' out' := by
  unfold State.receivedAt
  rw [State.afterTxn_answerAt, State.afterTxn_draws, show s.draws + 1 + k = s.draws + (k + 1) by omega]

@[simp] theorem State.afterTxn_readAt (s : State) (d : Device) (out : List Byte) (k : Nat)
    (d' : Device) (a : Byte) : (s.afterTxn d out).readAt k d' a = s.readAt (k + 1) d' a := by
  unfold State.readAt
  rw [State.afterTxn_receivedAt, State.afterTxn_params]

/-- As many bytes are shifted in as out (30_encoding.md R116). -/
theorem shiftIn_length (draw : Nat) : ∀ (n i : Nat) (ins : List Byte),
    (shiftIn draw i n ins).length = n
  | 0, _, _ => rfl
  | n + 1, i, [] => by simp [shiftIn, shiftIn_length draw n]
  | n + 1, i, b :: bs => by simp [shiftIn, shiftIn_length draw n]

theorem State.receivedAt_length {s : State} {k : Nat} {d : Device} {out ins : List Byte}
    (h : s.receivedAt k d out = some ins) : ins.length = out.length := by
  unfold State.receivedAt at h
  split at h
  · cases h
  · cases h
    exact shiftIn_length _ _ _ _

theorem State.receivedAt_isSome {s : State} {k : Nat} {d : Device} {out : List Byte}
    (h : s.answerAt k d out ≠ .fail) : ∃ ins, s.receivedAt k d out = some ins := by
  unfold State.receivedAt
  split
  · contradiction
  · exact ⟨_, rfl⟩

theorem State.receivedAt_none {s : State} {k : Nat} {d : Device} {out : List Byte} :
    s.receivedAt k d out = none ↔ s.answerAt k d out = .fail := by
  unfold State.receivedAt
  split <;> simp_all

/-! ## None of the next transactions fails -/

theorem State.answers_head {s : State} {n : Nat} (h : s.answers (n + 1)) (d : Device)
    (out : List Byte) : s.answerAt 0 d out ≠ .fail := h 0 (by omega) d out

theorem State.answers_tail {s : State} {n : Nat} (h : s.answers (n + 1)) (d : Device)
    (out : List Byte) : (s.afterTxn d out).answers n := by
  intro k hk d' out'
  rw [State.afterTxn_answerAt]
  exact h (k + 1) (by omega) d' out'

theorem State.answers_mono {s : State} {m n : Nat} (h : s.answers n) (hmn : m ≤ n) : s.answers m :=
  fun k hk => h k (by omega)

/-! ## Steps -/

@[simp] theorem act_bind {α β : Type} (x : Act α) (f : α → Act β) (s : State) :
    (x >>= f) s = match x s with
      | .ok a s' => f a s'
      | .error e s' => .error e s' := by
  change EStateM.bind x f s = _
  unfold EStateM.bind
  cases x s <;> rfl

@[simp] theorem act_map {α β : Type} (x : Act α) (f : α → β) (s : State) :
    (f <$> x) s = match x s with
      | .ok a s' => .ok (f a) s'
      | .error e s' => .error e s' := by
  change EStateM.map f x s = _
  unfold EStateM.map
  cases x s <;> rfl

@[simp] theorem act_pure {α : Type} (a : α) (s : State) : (pure a : Act α) s = .ok a s := rfl

@[simp] theorem act_throw {α : Type} (e : Status) (s : State) :
    (throw e : Act α) s = .error e s := rfl

@[simp] theorem update_apply (f : State → State) (s : State) : update f s = .ok () (f s) := rfl

@[simp] theorem params_apply (s : State) : params s = .ok s.params s := rfl

@[simp] theorem hazardCheck_apply (s : State) : hazardCheck s = .ok () s.hazardChecked := rfl

@[simp] theorem delay_apply (w : Wait) (t : Nat) (s : State) :
    delay w t s = .ok () (s.logged (.delay w t)) := rfl

@[simp] theorem setPin_apply (l : Line) (v : Bool) (s : State) :
    setPin l v s = .ok () ((s.setLine l v).logged (.pin l v)) := rfl

@[simp] theorem done_apply (s : State) : done s = .ok (.ok, []) s := rfl

@[simp] theorem doneWith_apply (st : Status) (s : State) : doneWith st s = .ok (st, []) s := rfl

@[simp] theorem doneData_apply (data : List Byte) (s : State) :
    doneData data s = .ok (.ok, data) s := rfl

theorem require_ok {c : Bool} (h : c = true) (e : Status) (s : State) :
    require c e s = .ok () s := by simp [require, h]

theorem require_error {c : Bool} (h : c = false) (e : Status) (s : State) :
    require c e s = .error e s := by simp [require, h]

theorem radioGate_ready {s : State} (h : s.radioLife = .ready) : radioGate s = .ok () s := by
  simp [radioGate, h]

theorem radioGate_failed {s : State} (h : s.radioLife = .failed) :
    radioGate s = .error .deviceNotFound s := by simp [radioGate, h]

theorem radioGate_uninit {s : State} (h : s.radioLife = .uninit) :
    radioGate s = .error .notInitialized s := by simp [radioGate, h]

theorem requireRadioState_ok {s : State} {m : RadioState} (h : s.radioState = m) :
    requireRadioState m s = .ok () s := by simp [requireRadioState, h]

theorem requireRadioState_error {s : State} {m : RadioState} (h : s.radioState ≠ m) :
    requireRadioState m s = .error .stateError s := by simp [requireRadioState, h]

theorem canGate_ready {s : State} (h : s.canLife = .ready) : canGate s = .ok () s := by
  simp [canGate, h]

theorem canGate_error {s : State} (h : s.canLife ≠ .ready) :
    canGate s = .error .notInitialized s := by simp [canGate, h]

/-! ## Transactions -/

/-- What a transaction can do (R131): it answers and goes on, or it fails with `BUS_IO_ERROR`; in both
cases it leaves `afterTxn`. -/
theorem txn_cases (d : Device) (out : List Byte) (s : State) :
    (∃ ins, s.receivedAt 0 d out = some ins ∧ txn d out s = .ok ins (s.afterTxn d out)) ∨
    (s.receivedAt 0 d out = none ∧ txn d out s = .error .busIoError (s.afterTxn d out)) := by
  unfold txn
  cases h : s.receivedAt 0 d out with
  | none => exact .inr ⟨rfl, rfl⟩
  | some ins => exact .inl ⟨ins, rfl, rfl⟩

theorem txn_ok {s : State} {d : Device} {out : List Byte} (h : s.answerAt 0 d out ≠ .fail) :
    txn d out s = .ok ((s.receivedAt 0 d out).getD []) (s.afterTxn d out) := by
  obtain ⟨ins, hi⟩ := State.receivedAt_isSome h
  simp [txn, hi]

theorem txn_error {s : State} {d : Device} {out : List Byte} (h : s.answerAt 0 d out = .fail) :
    txn d out s = .error .busIoError (s.afterTxn d out) := by
  simp [txn, State.receivedAt_none.2 h]

theorem busWrite_ok {s : State} {d : Device} {a v : Byte}
    (h : s.answerAt 0 d (s.params.framing.writeFrame d a v) ≠ .fail) :
    busWrite d a v s = .ok () (s.afterTxn d (s.params.framing.writeFrame d a v)) := by
  simp [busWrite, txn_ok h]

theorem busWrite_error {s : State} {d : Device} {a v : Byte}
    (h : s.answerAt 0 d (s.params.framing.writeFrame d a v) = .fail) :
    busWrite d a v s = .error .busIoError (s.afterTxn d (s.params.framing.writeFrame d a v)) := by
  simp [busWrite, txn_error h]

theorem busRead_ok {s : State} {d : Device} {a : Byte}
    (h : s.answerAt 0 d (s.params.framing.readFrame d a) ≠ .fail) :
    busRead d a s = .ok (s.readAt 0 d a) (s.afterTxn d (s.params.framing.readFrame d a)) := by
  simp [busRead, txn_ok h, State.readAt]

theorem busRead_error {s : State} {d : Device} {a : Byte}
    (h : s.answerAt 0 d (s.params.framing.readFrame d a) = .fail) :
    busRead d a s = .error .busIoError (s.afterTxn d (s.params.framing.readFrame d a)) := by
  simp [busRead, txn_error h]

theorem busCmd_ok {s : State} {d : Device} {out : List Byte} (h : s.answerAt 0 d out ≠ .fail) :
    busCmd d out s = .ok () (s.afterTxn d out) := by
  simp [busCmd, txn_ok h]

theorem busCmd_error {s : State} {d : Device} {out : List Byte} (h : s.answerAt 0 d out = .fail) :
    busCmd d out s = .error .busIoError (s.afterTxn d out) := by
  simp [busCmd, txn_error h]

theorem radioWrite_ok {s : State} {reg : RadioMap → Byte} {v : Byte}
    (h : s.answerAt 0 .radio (s.params.framing.writeFrame .radio (reg s.params.radio) v) ≠ .fail) :
    radioWrite reg v s = .ok () (s.afterTxn .radio (s.params.framing.writeFrame .radio (reg s.params.radio) v)) := by
  simp [radioWrite, busWrite_ok h]

theorem radioRead_ok {s : State} {reg : RadioMap → Byte}
    (h : s.answerAt 0 .radio (s.params.framing.readFrame .radio (reg s.params.radio)) ≠ .fail) :
    radioRead reg s = .ok (s.readAt 0 .radio (reg s.params.radio))
      (s.afterTxn .radio (s.params.framing.readFrame .radio (reg s.params.radio))) := by
  simp [radioRead, busRead_ok h]

theorem canWrite_ok {s : State} {reg : CanMap → Byte} {v : Byte}
    (h : s.answerAt 0 .can (s.params.framing.writeFrame .can (reg s.params.can) v) ≠ .fail) :
    canWrite reg v s = .ok () (s.afterTxn .can (s.params.framing.writeFrame .can (reg s.params.can) v)) := by
  simp [canWrite, busWrite_ok h]

theorem canRead_ok {s : State} {reg : CanMap → Byte}
    (h : s.answerAt 0 .can (s.params.framing.readFrame .can (reg s.params.can)) ≠ .fail) :
    canRead reg s = .ok (s.readAt 0 .can (reg s.params.can))
      (s.afterTxn .can (s.params.framing.readFrame .can (reg s.params.can))) := by
  simp [canRead, busRead_ok h]

/-- The record of the mode and the transactions do not meet: a mode recorded before a transaction may be
recorded after it. -/
theorem State.setRadioState_afterTxn (s : State) (m : RadioState) (d : Device) (out : List Byte) :
    (s.setRadioState m).afterTxn d out = (s.afterTxn d out).setRadioState m := by
  cases d <;> simp [State.afterTxn, State.setRadioState, State.setSelect, State.drewAnswer,
    State.logged, State.receivedAt, State.answerAt]

/-- A state whose next `n` given answers are there and none of them a failure. -/
theorem State.answers_of_replies {s : State} {n : Nat} (hl : n ≤ s.replies.length)
    (h : ∀ a ∈ s.replies, a ≠ .fail) : s.answers n := by
  intro k hk d out
  have hk' : k < s.replies.length := by omega
  simp only [State.answerAt, List.getElem?_eq_getElem hk']
  exact h _ (List.getElem_mem hk')

/-! ## The end of a command -/

theorem State.afterCommand_ok {s s' : State} {body : Act (Status × List Byte)}
    {r : Status × List Byte} (h : body s = .ok r s') : s.afterCommand body = s'.ended r.1 r.2 := by
  simp [State.afterCommand, h]

theorem State.afterCommand_error {s s' : State} {body : Act (Status × List Byte)} {st : Status}
    (h : body s = .error st s') : s.afterCommand body = s'.ended st [] := by
  simp [State.afterCommand, h]

theorem runCommand_next (body : Act (Status × List Byte)) (s : State) :
    runCommand body s = .next (s.afterCommand body) := rfl

/-- A command ends in one of two ways (60_exceptions.md R304). -/
theorem State.afterCommand_cases (s : State) (body : Act (Status × List Byte)) :
    (∃ r s', body s = .ok r s' ∧ s.afterCommand body = s'.ended r.1 r.2) ∨
    (∃ st s', body s = .error st s' ∧ s.afterCommand body = s'.ended st []) := by
  cases h : body s with
  | ok r s' => exact .inl ⟨r, s', rfl, State.afterCommand_ok h⟩
  | error st s' => exact .inr ⟨st, s', rfl, State.afterCommand_error h⟩

/-! ## What a command may do to the state, step by step -/

/-- The state a step of a command leaves, whether it goes on or raises. -/
def finalState {α : Type} : EStateM.Result Status State α → State
  | .ok _ s => s
  | .error _ s => s

/-- A step leaves the state related to where it began, whichever way it ends. -/
def Act.Keeps {α : Type} (R : State → State → Prop) (x : Act α) : Prop :=
  ∀ s, R s (finalState (x s))

section Keeps

variable {R : State → State → Prop}

theorem Act.keeps_pure {α : Type} (hr : ∀ s, R s s) (a : α) : Act.Keeps R (pure a : Act α) := hr

theorem Act.keeps_throw {α : Type} (hr : ∀ s, R s s) (e : Status) :
    Act.Keeps R (throw e : Act α) := hr

theorem Act.keeps_update (f : State → State) (h : ∀ s, R s (f s)) : Act.Keeps R (update f) := h

theorem Act.keeps_bind {α β : Type} (ht : ∀ a b c, R a b → R b c → R a c) {x : Act α}
    {f : α → Act β} (hx : Act.Keeps R x) (hf : ∀ a, Act.Keeps R (f a)) :
    Act.Keeps R (x >>= f) := by
  intro s
  have h := hx s
  rw [act_bind]
  cases hxs : x s with
  | ok a s' =>
    rw [hxs] at h
    exact ht _ _ _ h (hf a s')
  | error e s' =>
    rw [hxs] at h
    exact h

theorem Act.keeps_ite {α : Type} {c : Prop} [Decidable c] {x y : Act α} (hx : Act.Keeps R x)
    (hy : Act.Keeps R y) : Act.Keeps R (if c then x else y) := by
  split
  · exact hx
  · exact hy

theorem Act.keeps_params (hr : ∀ s, R s s) : Act.Keeps R params := hr

theorem Act.keeps_require (hr : ∀ s, R s s) (c : Bool) (e : Status) :
    Act.Keeps R (require c e) := by
  intro s
  unfold require
  split <;> exact hr s

theorem Act.keeps_radioGate (hr : ∀ s, R s s) : Act.Keeps R radioGate := by
  intro s
  unfold radioGate
  split <;> exact hr s

theorem Act.keeps_requireRadioState (hr : ∀ s, R s s) (m : RadioState) :
    Act.Keeps R (requireRadioState m) := by
  intro s
  unfold requireRadioState
  split <;> exact hr s

theorem Act.keeps_canGate (hr : ∀ s, R s s) : Act.Keeps R canGate := by
  intro s
  unfold canGate
  split <;> exact hr s

theorem Act.keeps_txn (h : ∀ s d out, R s (s.afterTxn d out)) (d : Device) (out : List Byte) :
    Act.Keeps R (txn d out) := by
  intro s
  unfold txn
  split <;> exact h s d out

end Keeps

/-- Every instruction answers a next state: the core has no fault and no meaning refuses. -/
theorem exec_next (i : Instr) (s : State) : ∃ t, exec i s = .next t := by
  cases i <;> exact ⟨_, rfl⟩

end Sys2Proof.Machine
end

