-- ==== Sys2Proof/Laws/PerInstr.lean ====
section
/-! SUPPORT. Statements about every instruction as syntax, one lemma per constructor. -/

namespace Sys2Proof.Laws.RowPattern

open Sys2Proof

/-- The bytes of an input. -/
def bytesOf : Input → List Byte
  | .command bytes => bytes
  | .bus _ bytes => bytes
  | .element bytes => bytes
  | .coreReset => []

/-- The row of spec/opcode_table.json an instruction belongs to: the position of the matched byte (1 for a
payload element, else 0), the mask and the match. -/
def row : Instr → Nat × Byte × Byte
  | .busWrite _ _ _ => (0, 0xFF, 0x01)
  | .busRead _ _ => (0, 0xFF, 0x02)
  | .getStatus => (0, 0xFF, 0x03)
  | .radioInit _ _ _ _ _ _ _ _ => (0, 0xFF, 0x10)
  | .radioTransmit _ => (0, 0xFF, 0x11)
  | .radioStartRx => (0, 0xFF, 0x12)
  | .radioPollRx => (0, 0xFF, 0x13)
  | .radioBlockingRx _ => (0, 0xFF, 0x14)
  | .radioSleep => (0, 0xFF, 0x15)
  | .radioStandby => (0, 0xFF, 0x16)
  | .radioSetFrequency _ => (0, 0xFF, 0x17)
  | .radioSetBandwidth _ => (0, 0xFF, 0x18)
  | .radioSetLnaAgc => (0, 0xFF, 0x19)
  | .radioSetTxPower _ => (0, 0xFF, 0x1A)
  | .radioSetSf _ => (0, 0xFF, 0x1B)
  | .radioSetCr _ => (0, 0xFF, 0x1C)
  | .radioSetPreamble _ => (0, 0xFF, 0x1D)
  | .radioSetSyncWord _ => (0, 0xFF, 0x1E)
  | .radioSetCrc _ => (0, 0xFF, 0x1F)
  | .canInit _ _ _ => (0, 0xFF, 0x20)
  | .canSetMode _ => (0, 0xFF, 0x21)
  | .canSend _ _ => (0, 0xFF, 0x22)
  | .canReceive => (0, 0xFF, 0x23)
  | .lppEncReset => (0, 0xFF, 0x30)
  | .lppEncDigital _ _ => (0, 0xFF, 0x31)
  | .lppEncAnalog _ _ => (0, 0xFF, 0x32)
  | .lppEncAccel _ _ _ _ => (0, 0xFF, 0x33)
  | .lppEncGps _ _ _ _ => (0, 0xFF, 0x34)
  | .lppEncRead => (0, 0xFF, 0x35)
  | .lppDecode _ => (0, 0xFF, 0x38)
  | .busframeRadioWrite _ _ => (0, 0x80, 0x80)
  | .busframeRadioRead _ => (0, 0x80, 0x00)
  | .busframeCanWrite _ _ => (0, 0xFF, 0x02)
  | .busframeCanRead _ => (0, 0xFF, 0x03)
  | .busframeCanReset => (0, 0xFF, 0xC0)
  | .busframeCanRts _ => (0, 0xF8, 0x80)
  | .lppDigitalInput _ _ => (1, 0xFF, 0x00)
  | .lppAnalogInput _ _ => (1, 0xFF, 0x02)
  | .lppAccelerometer _ _ _ _ => (1, 0xFF, 0x71)
  | .lppGps _ _ _ _ => (1, 0xFF, 0x88)

/-- The encoding of an instruction carries its row's bits in the matched byte. -/
def Statement (i : Instr) : Prop :=
  (bytesOf (encode LppCodes.reference i)).getD (row i).1 0 &&& (row i).2.1 = (row i).2.2

theorem busWrite (dev addr val : Byte) : Statement (.busWrite dev addr val) := by
  simp only [Statement, row, encode, bytesOf, List.getD_cons_zero]
  decide

theorem busRead (dev addr : Byte) : Statement (.busRead dev addr) := by
  simp only [Statement, row, encode, bytesOf, List.getD_cons_zero]
  decide

theorem getStatus : Statement (.getStatus) := by
  simp only [Statement, row, encode, bytesOf, List.getD_cons_zero]
  decide

theorem radioInit (freq bw sf cr preamble : Word) (sync : Byte) (txpow : Word) (crc : Byte) : Statement (.radioInit freq bw sf cr preamble sync txpow crc) := by
  simp only [Statement, row, encode, bytesOf, List.getD_cons_zero]
  decide

theorem radioTransmit (payload : List Byte) : Statement (.radioTransmit payload) := by
  simp only [Statement, row, encode, bytesOf, List.getD_cons_zero]
  decide

theorem radioStartRx : Statement (.radioStartRx) := by
  simp only [Statement, row, encode, bytesOf, List.getD_cons_zero]
  decide

theorem radioPollRx : Statement (.radioPollRx) := by
  simp only [Statement, row, encode, bytesOf, List.getD_cons_zero]
  decide

theorem radioBlockingRx (timeoutMs : Word) : Statement (.radioBlockingRx timeoutMs) := by
  simp only [Statement, row, encode, bytesOf, List.getD_cons_zero]
  decide

theorem radioSleep : Statement (.radioSleep) := by
  simp only [Statement, row, encode, bytesOf, List.getD_cons_zero]
  decide

theorem radioStandby : Statement (.radioStandby) := by
  simp only [Statement, row, encode, bytesOf, List.getD_cons_zero]
  decide

theorem radioSetFrequency (freq : Word) : Statement (.radioSetFrequency freq) := by
  simp only [Statement, row, encode, bytesOf, List.getD_cons_zero]
  decide

theorem radioSetBandwidth (bw : Word) : Statement (.radioSetBandwidth bw) := by
  simp only [Statement, row, encode, bytesOf, List.getD_cons_zero]
  decide

theorem radioSetLnaAgc : Statement (.radioSetLnaAgc) := by
  simp only [Statement, row, encode, bytesOf, List.getD_cons_zero]
  decide

theorem radioSetTxPower (txpow : Word) : Statement (.radioSetTxPower txpow) := by
  simp only [Statement, row, encode, bytesOf, List.getD_cons_zero]
  decide

theorem radioSetSf (sf : Word) : Statement (.radioSetSf sf) := by
  simp only [Statement, row, encode, bytesOf, List.getD_cons_zero]
  decide

theorem radioSetCr (cr : Word) : Statement (.radioSetCr cr) := by
  simp only [Statement, row, encode, bytesOf, List.getD_cons_zero]
  decide

theorem radioSetPreamble (preamble : Word) : Statement (.radioSetPreamble preamble) := by
  simp only [Statement, row, encode, bytesOf, List.getD_cons_zero]
  decide

theorem radioSetSyncWord (sync : Byte) : Statement (.radioSetSyncWord sync) := by
  simp only [Statement, row, encode, bytesOf, List.getD_cons_zero]
  decide

theorem radioSetCrc (crc : Byte) : Statement (.radioSetCrc crc) := by
  simp only [Statement, row, encode, bytesOf, List.getD_cons_zero]
  decide

theorem canInit (xtal bitrate : Word) (mode : Byte) : Statement (.canInit xtal bitrate mode) := by
  simp only [Statement, row, encode, bytesOf, List.getD_cons_zero]
  decide

theorem canSetMode (mode : Byte) : Statement (.canSetMode mode) := by
  simp only [Statement, row, encode, bytesOf, List.getD_cons_zero]
  decide

theorem canSend (id : Word) (data : List Byte) : Statement (.canSend id data) := by
  simp only [Statement, row, encode, bytesOf, List.getD_cons_zero]
  decide

theorem canReceive : Statement (.canReceive) := by
  simp only [Statement, row, encode, bytesOf, List.getD_cons_zero]
  decide

theorem lppEncReset : Statement (.lppEncReset) := by
  simp only [Statement, row, encode, bytesOf, List.getD_cons_zero]
  decide

theorem lppEncDigital (ch v : Byte) : Statement (.lppEncDigital ch v) := by
  simp only [Statement, row, encode, bytesOf, List.getD_cons_zero]
  decide

theorem lppEncAnalog (ch : Byte) (q : Word) : Statement (.lppEncAnalog ch q) := by
  simp only [Statement, row, encode, bytesOf, List.getD_cons_zero]
  decide

theorem lppEncAccel (ch : Byte) (qx qy qz : Word) : Statement (.lppEncAccel ch qx qy qz) := by
  simp only [Statement, row, encode, bytesOf, List.getD_cons_zero]
  decide

theorem lppEncGps (ch : Byte) (qlat qlon qalt : Word) : Statement (.lppEncGps ch qlat qlon qalt) := by
  simp only [Statement, row, encode, bytesOf, List.getD_cons_zero]
  decide

theorem lppEncRead : Statement (.lppEncRead) := by
  simp only [Statement, row, encode, bytesOf, List.getD_cons_zero]
  decide

theorem lppDecode (stream : List Byte) : Statement (.lppDecode stream) := by
  simp only [Statement, row, encode, bytesOf, List.getD_cons_zero]
  decide

theorem busframeRadioWrite (addr : BitVec 7) (val : Byte) : Statement (.busframeRadioWrite addr val) := by
  simp only [Statement, row, encode, bytesOf, List.getD_cons_zero]
  revert addr
  decide

theorem busframeRadioRead (addr : BitVec 7) : Statement (.busframeRadioRead addr) := by
  simp only [Statement, row, encode, bytesOf, List.getD_cons_zero]
  revert addr
  decide

theorem busframeCanWrite (addr val : Byte) : Statement (.busframeCanWrite addr val) := by
  simp only [Statement, row, encode, bytesOf, List.getD_cons_zero]
  decide

theorem busframeCanRead (addr : Byte) : Statement (.busframeCanRead addr) := by
  simp only [Statement, row, encode, bytesOf, List.getD_cons_zero]
  decide

theorem busframeCanReset : Statement (.busframeCanReset) := by
  simp only [Statement, row, encode, bytesOf, List.getD_cons_zero]
  decide

theorem busframeCanRts (mask : BitVec 3) : Statement (.busframeCanRts mask) := by
  simp only [Statement, row, encode, bytesOf, List.getD_cons_zero]
  revert mask
  decide

theorem lppDigitalInput (ch v : Byte) : Statement (.lppDigitalInput ch v) := by
  simp only [Statement, row, encode, bytesOf, LppCodes.reference, List.getD_cons_zero,
    List.getD_cons_succ]
  decide

theorem lppAnalogInput (ch : Byte) (v : BitVec 16) : Statement (.lppAnalogInput ch v) := by
  simp only [Statement, row, encode, bytesOf, LppCodes.reference, List.getD_cons_zero,
    List.getD_cons_succ]
  decide

theorem lppAccelerometer (ch : Byte) (x y z : BitVec 16) : Statement (.lppAccelerometer ch x y z) := by
  simp only [Statement, row, encode, bytesOf, LppCodes.reference, List.getD_cons_zero,
    List.getD_cons_succ]
  decide

theorem lppGps (ch : Byte) (lat lon alt : BitVec 24) : Statement (.lppGps ch lat lon alt) := by
  simp only [Statement, row, encode, bytesOf, LppCodes.reference, List.getD_cons_zero,
    List.getD_cons_succ]
  decide

end Sys2Proof.Laws.RowPattern
end

