-- ==== Sys2Proof/Laws/Transacted.lean ====
section
/-! SUPPORT. The closed forms the statements use: what a list of transactions, a run of flag reads and the
reset pulse leave of each field, and that the sequences of bytes and reads of the meanings are such
lists. -/

namespace Sys2Proof.Machine

open Sys2Proof

/-! ## Lists of transactions -/

@[simp] theorem State.transacted_nil (s : State) : s.transacted [] = s := rfl

@[simp] theorem State.transacted_cons (s : State) (t : Device × List Byte)
    (ts : List (Device × List Byte)) :
    s.transacted (t :: ts) = (s.afterTxn t.1 t.2).transacted ts := rfl

@[simp] theorem State.transacted_append (s : State) (ts us : List (Device × List Byte)) :
    s.transacted (ts ++ us) = (s.transacted ts).transacted us := by
  simp [State.transacted, List.foldl_append]

@[simp] theorem State.transacted_params (ts : List (Device × List Byte)) (s : State) :
    (s.transacted ts).params = s.params := by
  induction ts generalizing s with
  | nil => rfl
  | cons t ts ih => rw [State.transacted_cons, ih, State.afterTxn_params]

@[simp] theorem State.transacted_draws (ts : List (Device × List Byte)) (s : State) :
    (s.transacted ts).draws = s.draws + ts.length := by
  induction ts generalizing s with
  | nil => rfl
  | cons t ts ih =>
    rw [State.transacted_cons, ih, State.afterTxn_draws, List.length_cons]
    omega

@[simp] theorem State.transacted_answerAt (ts : List (Device × List Byte)) (s : State) (k : Nat)
    (d : Device) (out : List Byte) :
    (s.transacted ts).answerAt k d out = s.answerAt (k + ts.length) d out := by
  induction ts generalizing s with
  | nil => rfl
  | cons t ts ih =>
    rw [State.transacted_cons, ih, State.afterTxn_answerAt, List.length_cons, Nat.add_assoc]

/-- Reads agree where the answers and their indices do. -/
theorem State.readAt_of {s t : State} {k j : Nat}
    (h : ∀ d out, t.answerAt k d out = s.answerAt j d out) (hd : t.draws + k = s.draws + j)
    (hp : t.params = s.params) (d : Device) (a : Byte) : t.readAt k d a = s.readAt j d a := by
  simp [State.readAt, State.receivedAt, h, hd, hp]

@[simp] theorem State.transacted_readAt (ts : List (Device × List Byte)) (s : State) (k : Nat)
    (d : Device) (a : Byte) :
    (s.transacted ts).readAt k d a = s.readAt (k + ts.length) d a :=
  State.readAt_of (by intros; simp) (by simp; omega) (by simp) d a

theorem State.wrRadio_congr {s t : State} (h : t.params = s.params) : t.wrRadio = s.wrRadio := by
  funext reg v
  simp [State.wrRadio, h]

theorem State.rdRadio_congr {s t : State} (h : t.params = s.params) : t.rdRadio = s.rdRadio := by
  funext reg
  simp [State.rdRadio, h]

/-! ## The radio's register sequences (41_radio.md section 2)

Each sequence is its list of transactions where they are answered, and the list is the same from a later
state but for the index of its reads. -/

theorem frfBytes_eq (x f : Nat) : frfBytes (frfWord x f) =
    (BitVec.ofNat 8 (min (rneDiv (f * 2 ^ 19) x) (2 ^ 24 - 1) / 2 ^ 16),
      BitVec.ofNat 8 (min (rneDiv (f * 2 ^ 19) x) (2 ^ 24 - 1) / 2 ^ 8),
      BitVec.ofNat 8 (min (rneDiv (f * 2 ^ 19) x) (2 ^ 24 - 1))) := by
  unfold frfBytes frfWord
  refine Prod.ext ?_ (Prod.ext ?_ ?_) <;>
    (apply BitVec.eq_of_toNat_eq; simp [BitVec.extractLsb', Nat.shiftRight_eq_div_pow] <;> omega)

theorem preambleBytes_eq (n : Nat) :
    (preambleWord n).extractLsb' 8 8 = BitVec.ofNat 8 (min n 65535 / 2 ^ 8) ∧
    (preambleWord n).extractLsb' 0 8 = BitVec.ofNat 8 (min n 65535) := by
  constructor <;>
    (apply BitVec.eq_of_toNat_eq
     simp [preambleWord, BitVec.extractLsb', Nat.shiftRight_eq_div_pow] <;> omega)

theorem flagLegal_of {b : Byte} (h : b = 0 ∨ b = 1) : flagLegal b = true := by
  rcases h with rfl | rfl <;> rfl

/-- What `SetMode(m)` does where its write completes (R152). -/
theorem setMode_ok {s : State} {m : RadioState}
    (h : s.answerAt 0 .radio (s.wrMode m).2 ≠ .fail) :
    setMode m s = .ok () ((s.transacted [s.wrMode m]).setRadioState m) := by
  simp only [setMode, act_bind, params_apply]
  rw [radioWrite_ok h]
  rfl

/-- What `SetMode(m)` does where its write fails: the record keeps its old value (R152). -/
theorem setMode_error {s : State} {m : RadioState}
    (h : s.answerAt 0 .radio (s.wrMode m).2 = .fail) :
    setMode m s = .error .busIoError (s.transacted [s.wrMode m]) := by
  simp only [setMode, act_bind, params_apply, radioWrite]
  rw [busWrite_error h]
  rfl

theorem setFrequency_ok {s : State} {f : Nat} (h : s.answers 3) :
    setFrequency f s = .ok () (s.transacted (s.frequencyTxns f)) := by
  simp [setFrequency, radioWrite_ok, h _ _, State.frequencyTxns, State.wrRadio, frfBytes_eq]

theorem setBandwidth_ok {s : State} {bw : Nat} (h : s.answers 2) :
    setBandwidth bw s = .ok () (s.transacted (s.bandwidthTxns 0 bw)) := by
  simp [setBandwidth, radioWrite_ok, radioRead_ok, h _ _, State.bandwidthTxns, State.wrRadio,
    State.rdRadio, State.radioAt, withBandwidth]

theorem setLnaAgc_ok {s : State} (h : s.answers 3) :
    setLnaAgc s = .ok () (s.transacted (s.lnaAgcTxns 0)) := by
  simp [setLnaAgc, radioWrite_ok, radioRead_ok, h _ _, State.lnaAgcTxns, State.wrRadio,
    State.rdRadio, State.radioAt]

theorem setTxPower_ok {s : State} {p : Int} (h : s.answers 1) :
    setTxPower p s = .ok () (s.transacted (s.txPowerTxns p)) := by
  simp [setTxPower, radioWrite_ok, h _ _, State.txPowerTxns, State.wrRadio, paConfigByte, clamp]

theorem setSpreadingFactor_ok {s : State} {sf : Int} (h : s.answers 4) :
    setSpreadingFactor sf s = .ok () (s.transacted (s.spreadingFactorTxns 0 sf)) := by
  by_cases hq : min (max sf 6) 12 = 6 <;>
    simp [setSpreadingFactor, radioWrite_ok, radioRead_ok, h _ _, State.spreadingFactorTxns,
      State.wrRadio, State.rdRadio, State.radioAt, clamp, detectionPair, withSpreadingFactor, hq]

theorem setCodingRate_ok {s : State} {c : Int} (h : s.answers 2) :
    setCodingRate c s = .ok () (s.transacted (s.codingRateTxns 0 c)) := by
  simp [setCodingRate, radioWrite_ok, radioRead_ok, h _ _, State.codingRateTxns, State.wrRadio,
    State.rdRadio, State.radioAt, withCodingRate, clamp]

theorem setPreamble_ok {s : State} {n : Nat} (h : s.answers 2) :
    setPreamble n s = .ok () (s.transacted (s.preambleTxns n)) := by
  simp [setPreamble, radioWrite_ok, h _ _, State.preambleTxns, State.wrRadio, preambleBytes_eq]

theorem setSyncWord_ok {s : State} {w : Byte} (h : s.answers 1) :
    setSyncWord w s = .ok () (s.transacted [s.wrRadio RadioMap.syncWord w]) := by
  simp [setSyncWord, radioWrite_ok, h _ _, State.wrRadio]

theorem setCrc_ok {s : State} {crc : Byte} (hc : crc = 0 ∨ crc = 1) (h : s.answers 2) :
    setCrc (flagValue crc) s = .ok () (s.transacted (s.crcTxns 0 crc)) := by
  rcases hc with rfl | rfl <;>
    simp [setCrc, radioWrite_ok, radioRead_ok, h _ _, State.crcTxns, State.wrRadio, State.rdRadio,
      State.radioAt, flagValue, withCrc]

/-- What `ResetFifoRx()` and the mode write after it do (R164, R165, R172). -/
theorem restartRx_ok {s : State} (h : s.answers 3) :
    restartRx s = .ok () ((s.transacted s.startRxTxns).setRadioState .receivingContinuous) := by
  simp only [restartRx, resetFifoRx, act_bind, params_apply]
  rw [radioWrite_ok (h 0 (by omega) _ _)]
  simp only
  rw [radioWrite_ok (by simpa using h 1 (by omega) _ _)]
  simp only
  rw [setMode_ok (by simpa using h 2 (by omega) _ _)]
  simp [State.startRxTxns, State.wrMode, State.wrRadio]

theorem State.frequencyTxns_congr {s t : State} (h : t.params = s.params) :
    t.frequencyTxns = s.frequencyTxns := by
  funext f
  simp [State.frequencyTxns, State.wrRadio, h]

theorem State.txPowerTxns_congr {s t : State} (h : t.params = s.params) :
    t.txPowerTxns = s.txPowerTxns := by
  funext p
  simp [State.txPowerTxns, State.wrRadio, h]

theorem State.preambleTxns_congr {s t : State} (h : t.params = s.params) :
    t.preambleTxns = s.preambleTxns := by
  funext n
  simp [State.preambleTxns, State.wrRadio, h]

theorem State.wrMode_congr {s t : State} (h : t.params = s.params) : t.wrMode = s.wrMode := by
  funext m
  simp [State.wrMode, State.wrRadio, h]

theorem State.startRxTxns_congr {s t : State} (h : t.params = s.params) :
    t.startRxTxns = s.startRxTxns := by
  simp [State.startRxTxns, State.wrMode, State.wrRadio, h]

/-- The state answers reads as another one does `n` transactions later. -/
def State.ahead (s t : State) (n : Nat) : Prop :=
  t.params = s.params ∧ ∀ k d a, t.readAt k d a = s.readAt (k + n) d a

theorem State.bandwidthTxns_ahead {s t : State} {n : Nat} (h : s.ahead t n) (k bw : Nat) :
    t.bandwidthTxns k bw = s.bandwidthTxns (k + n) bw := by
  simp [State.bandwidthTxns, State.rdRadio, State.wrRadio, State.radioAt, h.1, h.2]

theorem State.lnaAgcTxns_ahead {s t : State} {n : Nat} (h : s.ahead t n) (k : Nat) :
    t.lnaAgcTxns k = s.lnaAgcTxns (k + n) := by
  simp [State.lnaAgcTxns, State.rdRadio, State.wrRadio, State.radioAt, h.1, h.2]

theorem State.spreadingFactorTxns_ahead {s t : State} {n : Nat} (h : s.ahead t n) (k : Nat)
    (sf : Int) : t.spreadingFactorTxns k sf = s.spreadingFactorTxns (k + n) sf := by
  simp [State.spreadingFactorTxns, State.rdRadio, State.wrRadio, State.radioAt, h.1, h.2,
    Nat.add_right_comm]

theorem State.codingRateTxns_ahead {s t : State} {n : Nat} (h : s.ahead t n) (k : Nat) (c : Int) :
    t.codingRateTxns k c = s.codingRateTxns (k + n) c := by
  simp [State.codingRateTxns, State.rdRadio, State.wrRadio, State.radioAt, h.1, h.2]

theorem State.crcTxns_ahead {s t : State} {n : Nat} (h : s.ahead t n) (k : Nat) (crc : Byte) :
    t.crcTxns k crc = s.crcTxns (k + n) crc := by
  simp [State.crcTxns, State.rdRadio, State.wrRadio, State.radioAt, h.1, h.2]

/-! ## Runs of flag reads -/

@[simp] theorem State.polled_params (w : Wait) (t n : Nat) (s : State) :
    (State.polled w t n s).params = s.params := by
  induction n generalizing s with
  | zero => rfl
  | succ n ih =>
    simp only [State.polled]
    split
    · simp
    · rw [ih]
      simp

@[simp] theorem State.polled_draws (w : Wait) (t n : Nat) (s : State) :
    (State.polled w t n s).draws = s.draws + n := by
  induction n generalizing s with
  | zero => rfl
  | succ n ih =>
    simp only [State.polled]
    split
    · simp_all
    · rw [ih]
      simp
      omega

@[simp] theorem State.polled_answerAt (w : Wait) (t n : Nat) (s : State) (k : Nat) (d : Device)
    (out : List Byte) : (State.polled w t n s).answerAt k d out = s.answerAt (k + n) d out := by
  induction n generalizing s with
  | zero => rfl
  | succ n ih =>
    simp only [State.polled]
    split
    · simp_all
    · rw [ih]
      simp [Nat.add_assoc]

@[simp] theorem State.polled_readAt (w : Wait) (t n : Nat) (s : State) (k : Nat) (d : Device)
    (a : Byte) : (State.polled w t n s).readAt k d a = s.readAt (k + n) d a :=
  State.readAt_of (by intros; simp) (by simp; omega) (by simp) d a

/-- The transmit poll loop where TxDone is first seen at read `k` (41_radio.md R171). -/
theorem pollTxDone_seen {k n : Nat} {s : State} (hk : k < n)
    (h0 : ∀ j, j < k → txDone s.params.radio.layout (s.radioAt j RadioMap.irqFlags) = false)
    (h1 : txDone s.params.radio.layout (s.radioAt k RadioMap.irqFlags) = true) (ha : s.answers (k + 1)) :
    pollTxDone n s = .ok true (State.polled .txPoll s.params.txPollDelay (k + 1) s) := by
  induction k generalizing n s with
  | zero =>
    obtain ⟨n, rfl⟩ : ∃ m, n = m + 1 := ⟨n - 1, by omega⟩
    simp only [State.radioAt] at h1
    simp [pollTxDone, radioRead_ok (ha 0 (by omega) _ _), h1, State.polled, State.rdRadio]
  | succ k ih =>
    obtain ⟨n, rfl⟩ : ∃ m, n = m + 1 := ⟨n - 1, by omega⟩
    have h00 := h0 0 (by omega)
    simp only [State.radioAt] at h00
    have hn : n ≠ 0 := by omega
    simp only [pollTxDone, act_bind, params_apply, radioRead_ok (ha 0 (by omega) _ _), h00,
      Bool.false_eq_true, if_false, if_neg hn, delay_apply]
    rw [ih (by omega)]
    · simp [State.polled, State.rdRadio]
    · intro j hj
      simpa [State.radioAt] using h0 (j + 1) (by omega)
    · simpa [State.radioAt] using h1
    · intro j hj d out
      simpa using ha (j + 1) (by omega) d out

/-- The transmit poll loop where TxDone is never seen (41_radio.md R171). -/
theorem pollTxDone_none {n : Nat} {s : State}
    (h0 : ∀ j, j < n → txDone s.params.radio.layout (s.radioAt j RadioMap.irqFlags) = false)
    (ha : s.answers n) :
    pollTxDone n s = .ok false (State.polled .txPoll s.params.txPollDelay n s) := by
  induction n generalizing s with
  | zero => rfl
  | succ n ih =>
    have h00 := h0 0 (by omega)
    simp only [State.radioAt] at h00
    simp only [pollTxDone, act_bind, params_apply, radioRead_ok (ha 0 (by omega) _ _), h00,
      Bool.false_eq_true, if_false]
    by_cases hn : n = 0
    · simp [hn, State.polled, State.rdRadio]
    · simp only [if_neg hn, act_bind, delay_apply]
      rw [ih]
      · simp [State.polled, State.rdRadio, hn]
      · intro j hj
        simpa [State.radioAt] using h0 (j + 1) (by omega)
      · intro j hj d out
        simpa using ha (j + 1) (by omega) d out

/-- The receive poll loop where RxDone is first seen at read `k` (41_radio.md R174). -/
theorem pollRxDone_seen {k n : Nat} {s : State} (hk : k < n)
    (h0 : ∀ j, j < k → rxDone s.params.radio.layout (s.radioAt j RadioMap.irqFlags) = false)
    (h1 : rxDone s.params.radio.layout (s.radioAt k RadioMap.irqFlags) = true) (ha : s.answers (k + 1)) :
    pollRxDone n s = .ok (some (s.radioAt k RadioMap.irqFlags))
      (State.polled .rxPoll s.params.rxPollIntervalMs (k + 1) s) := by
  induction k generalizing n s with
  | zero =>
    obtain ⟨n, rfl⟩ : ∃ m, n = m + 1 := ⟨n - 1, by omega⟩
    simp only [State.radioAt] at h1
    simp [pollRxDone, radioRead_ok (ha 0 (by omega) _ _), h1, State.polled, State.rdRadio,
      State.radioAt]
  | succ k ih =>
    obtain ⟨n, rfl⟩ : ∃ m, n = m + 1 := ⟨n - 1, by omega⟩
    have h00 := h0 0 (by omega)
    simp only [State.radioAt] at h00
    have hn : n ≠ 0 := by omega
    simp only [pollRxDone, act_bind, params_apply, radioRead_ok (ha 0 (by omega) _ _), h00,
      Bool.false_eq_true, if_false, if_neg hn, delay_apply]
    rw [ih (by omega)]
    · simp [State.polled, State.rdRadio, State.radioAt]
    · intro j hj
      simpa [State.radioAt] using h0 (j + 1) (by omega)
    · simpa [State.radioAt] using h1
    · intro j hj d out
      simpa using ha (j + 1) (by omega) d out

/-- The receive poll loop where RxDone is never seen (41_radio.md R174). -/
theorem pollRxDone_none {n : Nat} {s : State}
    (h0 : ∀ j, j < n → rxDone s.params.radio.layout (s.radioAt j RadioMap.irqFlags) = false)
    (ha : s.answers n) :
    pollRxDone n s = .ok none (State.polled .rxPoll s.params.rxPollIntervalMs n s) := by
  induction n generalizing s with
  | zero => rfl
  | succ n ih =>
    have h00 := h0 0 (by omega)
    simp only [State.radioAt] at h00
    simp only [pollRxDone, act_bind, params_apply, radioRead_ok (ha 0 (by omega) _ _), h00,
      Bool.false_eq_true, if_false]
    by_cases hn : n = 0
    · simp [hn, State.polled, State.rdRadio]
    · simp only [if_neg hn, act_bind, delay_apply]
      rw [ih]
      · simp [State.polled, State.rdRadio, hn]
      · intro j hj
        simpa [State.radioAt] using h0 (j + 1) (by omega)
      · intro j hj d out
        simpa using ha (j + 1) (by omega) d out

/-! ## The reset pulse (41_radio.md R170) -/

@[simp] theorem pulseReset_apply (s : State) : pulseReset s = .ok () s.pulsed := by
  unfold pulseReset State.pulsed
  simp only [act_bind, params_apply]
  split <;> simp [*]

@[simp] theorem State.pulsed_params (s : State) : s.pulsed.params = s.params := by
  unfold State.pulsed
  split <;> simp

@[simp] theorem State.pulsed_draws (s : State) : s.pulsed.draws = s.draws := by
  unfold State.pulsed
  split <;> simp

@[simp] theorem State.pulsed_answerAt (s : State) (k : Nat) (d : Device) (out : List Byte) :
    s.pulsed.answerAt k d out = s.answerAt k d out := by
  unfold State.pulsed
  split <;> simp

@[simp] theorem State.pulsed_readAt (s : State) (k : Nat) (d : Device) (a : Byte) :
    s.pulsed.readAt k d a = s.readAt k d a := by
  unfold State.pulsed
  split <;> simp

/-! ## Runs of writes and reads -/

theorem writeFifo_ok {bs : List Byte} {s : State} (h : s.answers bs.length) :
    writeFifo bs s = .ok () (s.transacted (bs.map (s.wrRadio RadioMap.fifo))) := by
  induction bs generalizing s with
  | nil => rfl
  | cons b bs ih =>
    simp only [writeFifo, act_bind, radioWrite_ok (h 0 (by simp) _ _)]
    rw [ih (State.answers_tail h _ _), State.wrRadio_congr (State.afterTxn_params s _ _)]
    rfl

theorem readFifo_ok {n : Nat} {s : State} (h : s.answers n) :
    readFifo n s = .ok ((List.range n).map fun j => s.radioAt j RadioMap.fifo)
      (s.transacted (List.replicate n (s.rdRadio RadioMap.fifo))) := by
  induction n generalizing s with
  | zero => rfl
  | succ n ih =>
    simp only [readFifo, act_bind, radioRead_ok (h 0 (by omega) _ _)]
    rw [ih (State.answers_tail h _ _), State.rdRadio_congr (State.afterTxn_params s _ _)]
    simp [List.range_succ_eq_map, List.replicate_succ, State.radioAt, State.rdRadio,
      Function.comp_def]

/-- What `ReadPacket()` does where its transactions are answered (41_radio.md R166). -/
theorem readPacket_ok {s : State} (h : s.answers (3 + (s.packetLength 0).toNat)) :
    readPacket s = .ok (s.packetLength 0, s.packetBytes 0) (s.transacted (s.packetTxns 0)) := by
  have h0 := h 0 (by omega)
  have h1 := h 1 (by omega)
  have h2 := h 2 (by omega)
  simp only [readPacket, act_bind]
  rw [radioRead_ok (h0 _ _)]
  simp only
  rw [radioRead_ok (by simpa using h1 _ _)]
  simp only
  rw [radioWrite_ok (by simpa using h2 _ _)]
  simp only
  rw [readFifo_ok (by
    intro k hk d out
    simpa using h (k + 3) (by simp only [State.packetLength, State.radioAt] at hk ⊢; omega) d out)]
  simp [State.packetLength, State.packetBytes, State.packetTxns, State.radioAt, State.rdRadio,
    State.wrRadio, Nat.add_comm]
  intro j _
  congr 1
  omega

theorem writeCanBytes_ok {ws : List (Byte × Byte)} {s : State} (h : s.answers ws.length) :
    writeCanBytes ws s = .ok () (s.transacted (ws.map fun w => s.wrCan w.1 w.2)) := by
  induction ws generalizing s with
  | nil => rfl
  | cons w ws ih =>
    simp only [writeCanBytes, act_bind, busWrite_ok (h 0 (by simp) _ _)]
    rw [ih (State.answers_tail h _ _)]
    simp [State.wrCan]

theorem readCanBytes_ok {as : List Byte} {s : State} (h : s.answers as.length) :
    readCanBytes as s =
      .ok (as.mapIdx fun j a => s.readAt j .can a) (s.transacted (as.map s.rdCan)) := by
  induction as generalizing s with
  | nil => rfl
  | cons a as ih =>
    simp only [readCanBytes, act_bind, busRead_ok (h 0 (by simp) _ _)]
    rw [ih (State.answers_tail h _ _)]
    simp [State.rdCan]
    rfl

end Sys2Proof.Machine
end

