-- ==== Sys2Proof/Tests/Slice0.lean ====
section
/-! SUPPORT. Small tests: ill-formed terms the checks refuse, words written out from the spec's encodings
(30_encoding.md and the examples of files 40 to 43), one step per instruction on scripted answers
(95_test_vectors.md and the examples of the command rules, with that file's parameters), and for each
statement with hypotheses a witness that meets them, at the boundaries of its clauses. -/

namespace Sys2Proof.Tests

open Sys2Proof Sys2Proof.Machine

/-! ## Helpers -/

/-- The parameters of 95_test_vectors.md section 0. -/
def testParams : Params := { Config.params with
  txPollBudget := 3
  txPollDelay := 1
  rxPollIntervalMs := 10
  resetPulse := 1
  resetSettle := 10
  canSettle := 1
  caps := ⟨true, false, false⟩
  timingA := ⟨8000000, 500000, 0x00, 0x90, 0x82⟩
  timingB := ⟨16000000, 500000, 0x00, 0xF0, 0x86⟩ }

/-- The same with 29-bit identifiers. -/
def testParams29 : Params := { testParams with canIdMode := .ext29 }

/-- The reset state with those parameters and some scripted answers. -/
def fresh (replies : List Answer) : State :=
  { State.reset with params := testParams, replies := replies }

/-- A constructed radio in a mode. -/
def radioUp (m : RadioState) (replies : List Answer) : State :=
  { fresh replies with radioLife := .ready, radioState := m }

/-- A constructed CAN controller. -/
def canUp (replies : List Answer) : State := { fresh replies with canLife := .ready }

/-- The same with 29-bit identifiers. -/
def canUp29 (replies : List Answer) : State :=
  { canUp replies with params := testParams29 }

/-- A state with one command frame handed in. -/
def handed (frame : List Byte) : State := { fresh [] with inbox := [.command frame] }

/-- The answer of a radio read, or of any radio write. -/
def rd (v : Byte) : Answer := .shift [0, v]

/-- The answer of a CAN read, or of any CAN write. -/
def rdc (v : Byte) : Answer := .shift [0, 0, v]

/-- The bytes shifted out, transaction by transaction. -/
def outs : Host.Outcome State Fault Refusal → List (List Byte)
  | .next t => t.trace.filterMap fun e => match e with
    | .txn _ out _ => some out
    | _ => none
  | _ => []

/-- What was answered. -/
def answer : Host.Outcome State Fault Refusal → List Output
  | .next t => t.outbox
  | _ => []

/-- The status word afterwards; 0 for an outcome that is no next state. -/
def statusAfter : Host.Outcome State Fault Refusal → Nat
  | .next t => t.status.toNat
  | _ => 0

/-- The encoder buffer afterwards. -/
def bufferAfter : Host.Outcome State Fault Refusal → List Byte
  | .next t => t.encBuf
  | _ => []

/-! ## Ill-formed terms -/

theorem test_fits_payload (p : List Byte) (h : p.length = 256) :
    (Instr.radioTransmit p).fits = false := by simp [Instr.fits, h]

theorem test_fits_data (p : List Byte) (h : p.length = 256) :
    (Instr.canSend 0 p).fits = false := by simp [Instr.fits, h]

theorem test_fits_stream (p : List Byte) (h : p.length = 65536) :
    (Instr.lppDecode p).fits = false := by simp [Instr.fits, h]

theorem test_fits_rts_mask : (Instr.busframeCanRts 3).fits = false ∧
    (Instr.busframeCanRts 0).fits = false := by decide

theorem test_wellFormed_device : (Instr.busWrite 2 0 0).wellFormed testParams = false ∧
    (Instr.busRead 2 0).wellFormed testParams = false := by decide

theorem test_wellFormed_flag : (Instr.radioSetCrc 2).wellFormed testParams = false ∧
    (Instr.radioInit 0 0 0 0 0 0 0 0x80).wellFormed testParams = false := by decide

theorem test_wellFormed_mode : (Instr.canSetMode 1).wellFormed testParams = false ∧
    (Instr.canInit 0 0 0x08).wellFormed testParams = false := by decide

theorem test_wellFormed_identifier : (Instr.canSend 0x800 []).wellFormed testParams = false ∧
    (Instr.canSend 0x20000000 []).wellFormed testParams29 = false ∧
    (Instr.canSend 0x800 []).wellFormed testParams29 = true := by decide

/-! ## Words of the spec (30_encoding.md) -/

theorem test_decode_transport :
    decodeCommand [0x01, 0x00, 0x39, 0x34] = .ok (.busWrite 0 0x39 0x34) ∧
    decodeCommand [0x02, 0x01, 0x2C] = .ok (.busRead 1 0x2C) ∧
    decodeCommand [0x03] = .ok .getStatus := ⟨rfl, rfl, rfl⟩

theorem test_decode_radio_modes :
    decodeCommand [0x12] = .ok .radioStartRx ∧ decodeCommand [0x13] = .ok .radioPollRx ∧
    decodeCommand [0x15] = .ok .radioSleep ∧ decodeCommand [0x16] = .ok .radioStandby ∧
    decodeCommand [0x14, 0x00, 0x00, 0x00, 0x19] = .ok (.radioBlockingRx 25) ∧
    decodeCommand [0x11, 0x03, 0xAA, 0xBB, 0xCC] = .ok (.radioTransmit [0xAA, 0xBB, 0xCC]) :=
  ⟨rfl, rfl, rfl, rfl, rfl, rfl⟩

theorem test_decode_radio_settings :
    decodeCommand [0x17, 0x19, 0xD1, 0xB9, 0xD8] = .ok (.radioSetFrequency 433175000) ∧
    decodeCommand [0x18, 0x00, 0x00, 0x8E, 0x7B] = .ok (.radioSetBandwidth 36475) ∧
    decodeCommand [0x19] = .ok .radioSetLnaAgc ∧
    decodeCommand [0x1A, 0xFF, 0xFF, 0xFF, 0xFB] = .ok (.radioSetTxPower (BitVec.ofInt 32 (-5))) ∧
    decodeCommand [0x1B, 0x00, 0x00, 0x00, 0x06] = .ok (.radioSetSf 6) ∧
    decodeCommand [0x1C, 0x00, 0x00, 0x00, 0x08] = .ok (.radioSetCr 8) ∧
    decodeCommand [0x1D, 0x00, 0x00, 0x12, 0x34] = .ok (.radioSetPreamble 0x1234) ∧
    decodeCommand [0x1E, 0x34] = .ok (.radioSetSyncWord 0x34) ∧
    decodeCommand [0x1F, 0x00] = .ok (.radioSetCrc 0) :=
  ⟨rfl, rfl, rfl, rfl, rfl, rfl, rfl, rfl, rfl⟩

theorem test_decode_radio_init :
    decodeCommand [0x10, 0x33, 0xBC, 0xA1, 0x00, 0x00, 0x01, 0xE8, 0x48, 0x00, 0x00, 0x00, 0x07,
      0x00, 0x00, 0x00, 0x05, 0x00, 0x00, 0x00, 0x08, 0x12, 0x00, 0x00, 0x00, 0x11, 0x01] =
    .ok (.radioInit 868000000 125000 7 5 8 0x12 17 1) := rfl

theorem test_decode_can :
    decodeCommand [0x20, 0x00, 0x7A, 0x12, 0x00, 0x00, 0x07, 0xA1, 0x20, 0x00] =
      .ok (.canInit 8000000 500000 0) ∧
    decodeCommand [0x21, 0x03] = .ok (.canSetMode 3) ∧
    decodeCommand [0x22, 0x00, 0x00, 0x01, 0x23, 0x04, 0x11, 0x22, 0x33, 0x44] =
      .ok (.canSend 0x123 [0x11, 0x22, 0x33, 0x44]) ∧
    decodeCommand [0x23] = .ok .canReceive := ⟨rfl, rfl, rfl, rfl⟩

theorem test_decode_codec :
    decodeCommand [0x30] = .ok .lppEncReset ∧
    decodeCommand [0x31, 0x01, 0x01] = .ok (.lppEncDigital 1 1) ∧
    decodeCommand [0x32, 0x02, 0x00, 0x00, 0x04, 0xD2] = .ok (.lppEncAnalog 2 1234) ∧
    decodeCommand [0x33, 0x03, 0xFF, 0xFF, 0xD9, 0xAE, 0x00, 0x00, 0x00, 0x00, 0x00, 0x00, 0x03,
      0xE8] = .ok (.lppEncAccel 3 (BitVec.ofInt 32 (-9810)) 0 1000) ∧
    decodeCommand [0x34, 0x04, 0x00, 0x07, 0x83, 0x42, 0x00, 0x01, 0x11, 0x70, 0x00, 0x00, 0x00,
      0x00] = .ok (.lppEncGps 4 492354 70000 0) ∧
    decodeCommand [0x35] = .ok .lppEncRead ∧
    decodeCommand [0x38, 0x00, 0x03, 0x05, 0x00, 0xFF] = .ok (.lppDecode [0x05, 0x00, 0xFF]) :=
  ⟨rfl, rfl, rfl, rfl, rfl, rfl, rfl⟩

theorem test_decode_bus_frames :
    decodeBusFrame .radio [0xB9, 0x34] = .ok (.busframeRadioWrite 0x39 0x34) ∧
    decodeBusFrame .radio [0x42, 0x00] = .ok (.busframeRadioRead 0x42) ∧
    decodeBusFrame .can [0x02, 0x0F, 0x60] = .ok (.busframeCanWrite 0x0F 0x60) ∧
    decodeBusFrame .can [0x03, 0x2C, 0x00] = .ok (.busframeCanRead 0x2C) ∧
    decodeBusFrame .can [0xC0] = .ok .busframeCanReset ∧
    decodeBusFrame .can [0x81] = .ok (.busframeCanRts 1) ∧
    decodeBusFrame .can [0x83] = .error .notABusFrame ∧
    decodeBusFrame .radio [0x42, 0x01] = .error .notABusFrame := by decide

theorem test_decode_elements :
    decodeElement .reference [0x01, 0x00, 0x01] = .ok (.lppDigitalInput 1 1) ∧
    decodeElement .reference [0x02, 0x02, 0x04, 0xD2] = .ok (.lppAnalogInput 2 1234) ∧
    decodeElement .reference [0x03, 0x71, 0xD9, 0xAE, 0x00, 0x00, 0x03, 0xE8] =
      .ok (.lppAccelerometer 3 0xD9AE 0 1000) ∧
    decodeElement .reference [0x04, 0x88, 0x07, 0x83, 0x42, 0x01, 0x11, 0x70, 0x00, 0x00, 0x00] =
      .ok (.lppGps 4 492354 70000 0) ∧
    decodeElement .reference [0x01, 0x03, 0x00] = .error .notAnElement := by decide

theorem test_decode_refusals :
    decodeCommand [] = .error (.status .frameError) ∧
    decodeCommand [0x00] = .error (.status .illegalCommand) ∧
    decodeCommand [0x36, 0x00] = .error (.status .illegalCommand) ∧
    decodeCommand [0x03, 0x00] = .error (.status .frameError) ∧
    decodeCommand [0x38, 0x00, 0x03, 0x01, 0x00] = .error (.status .frameError) ∧
    decodeCommand [0x22, 0x00] = .error (.status .frameError) := ⟨rfl, rfl, rfl, rfl, rfl, rfl⟩

theorem test_decodeTableWord :
    decodeTableWord 8 0x03 = some .getStatus ∧ decodeTableWord 8 0xC0 = some .busframeCanReset ∧
    decodeTableWord 8 0x81 = some (.busframeCanRts 1) ∧
    decodeTableWord 32 0x34390001 = some (.busWrite 0 0x39 0x34) ∧
    decodeTableWord 16 0x34B9 = some (.busframeRadioWrite 0x39 0x34) := by decide

/-! ## One step of each command -/

/-- R137's example. -/
theorem test_busWrite : outs (exec (.busWrite 0 0x39 0x34) (fresh [rd 0])) = [[0xB9, 0x34]] ∧
    answer (exec (.busWrite 0 0x80 0) (fresh [])) = [.result 0x1A []] := by decide

/-- R138's example. -/
theorem test_busRead : outs (exec (.busRead 1 0x2C) (fresh [rdc 1])) = [[0x03, 0x2C, 0x00]] ∧
    answer (exec (.busRead 1 0x2C) (fresh [rdc 1])) = [.result 0x00 [0x01]] := by decide

/-- A failed read: the fault bit and the status, with last_status (95_test_vectors.md). -/
theorem test_busRead_fail : answer (exec (.busRead 0 0x42) (fresh [.fail])) = [.result 0x11 []] ∧
    statusAfter (exec (.busRead 0 0x42) (fresh [.fail])) = 0x001109C0 := by decide

/-- Another framing than the reference one is followed (R132, R133): the address one bit up, bit 0 the
write flag, then a command byte, and the value read at position 0. -/
def otherFraming : Framing := { Framing.reference with
  radio := ⟨[.address 1 0xFE 0x01, .const 0x55, .value], [.address 1 0xFE 0x00], 0⟩ }

theorem test_other_framing :
    outs (exec (.busWrite 0 0x42 0x34)
      { fresh [] with params := { testParams with framing := otherFraming }, replies := [rd 0] }) =
      [[0x85, 0x55, 0x34]] ∧
    answer (exec (.busRead 0 0x42)
      { fresh [] with params := { testParams with framing := otherFraming }, replies := [.shift [7]] }) =
      [.result 0x00 [7]] := by decide

/-- The constraints hold of the test parameters, and not where the radio's space is too small for its map
(20_memory.md R56). -/
theorem test_mapsFit : testParams.wf = true ∧ { testParams with radioAddrBits := 6 }.wf = false ∧
    { testParams with canTxMailbox := 3 }.wf = false := by decide

/-- Another instance's codes, and a fourth mailbox with a request-to-send of its own (00_scope.md R7,
42_can.md R229). -/
def otherParams : Params := { testParams with
  radio := { RadioMap.reference with layout := { RadioLayout.reference with
    powerCodes := List.replicate 15 0x00 ++ [0x0A], codingRateCodes := [0x07, 0x06, 0x05, 0x04] } }
  framing := { Framing.reference with canRts := [[0x81], [0x82], [0x84], [0x99]] }
  canTxMailbox := 3 }

theorem test_other_codes :
    outs (exec (.radioSetTxPower 17) { radioUp .standby [rd 0] with params := otherParams }) =
      [[0x89, 0x8A]] ∧
    outs (exec (.radioSetCr 5) { radioUp .standby [rd 0x70, rd 0] with params := otherParams }) =
      [[0x1D, 0x00], [0x9D, 0x7E]] ∧
    outs (exec (.canSend 0x123 []) { canUp [rdc 0, rdc 0, rdc 0, rdc 0] with params := otherParams }) =
      [[0x02, 0x61, 0x24], [0x02, 0x62, 0x60], [0x02, 0x65, 0x00], [0x99]] := by decide

/-- The reset STATUS of 95_test_vectors.md with the reset line present. -/
theorem test_getStatus :
    answer (exec .getStatus (fresh [])) = [.result 0x00 [0x00, 0x00, 0x09, 0xC0, 0x00, 0x00]] := by
  decide

/-- INIT868 of 95_test_vectors.md, with its replies. -/
def initReplies : List Answer :=
  [rd 0x12, rd 0, rd 0, rd 0, rd 0, rd 0x72, rd 0, rd 0x20, rd 0, rd 0, rd 0, rd 0, rd 0, rd 0x70,
    rd 0, rd 0x72, rd 0, rd 0, rd 0, rd 0, rd 0x70, rd 0, rd 0]

theorem test_radioInit :
    outs (exec (.radioInit 868100000 125000 7 5 8 0x12 17 1) (fresh initReplies)) =
      [[0x42, 0x00], [0x81, 0x80], [0x86, 0xD9], [0x87, 0x06], [0x88, 0x66], [0x1D, 0x00],
        [0x9D, 0x72], [0x0C, 0x00], [0x8C, 0x23], [0xA6, 0x04], [0x89, 0x8F], [0xB1, 0xC3],
        [0xB7, 0x0A], [0x1E, 0x00], [0x9E, 0x70], [0x1D, 0x00], [0x9D, 0x72], [0xA0, 0x00],
        [0xA1, 0x08], [0xB9, 0x12], [0x1E, 0x00], [0x9E, 0x74], [0x81, 0x81]] := by decide

theorem test_radioInit_mismatch :
    statusAfter (exec (.radioInit 868100000 125000 7 5 8 0x12 17 1) (fresh [rd 0x22])) =
      0x001009C8 := by decide

theorem test_radioTransmit :
    outs (exec (.radioTransmit [0xAA, 0xBB, 0xCC]) (radioUp .standby
      [rd 0, rd 0, rd 0, rd 0, rd 0, rd 0, rd 0, rd 8, rd 0])) =
      [[0x8D, 0x00], [0x80, 0xAA], [0x80, 0xBB], [0x80, 0xCC], [0xA2, 0x03], [0x81, 0x83],
        [0x12, 0x00], [0x12, 0x00], [0x92, 0x08]] := by decide

theorem test_radioTransmit_timeout :
    statusAfter (exec (.radioTransmit [0x55]) (radioUp .standby
      [rd 0, rd 0, rd 0, rd 0, rd 0, rd 0, rd 0, rd 0, rd 0])) = 0x000309C5 := by decide

theorem test_radioStartRx : outs (exec .radioStartRx (radioUp .standby [rd 0, rd 0, rd 0])) =
    [[0x8F, 0x00], [0x8D, 0x00], [0x81, 0x85]] := by decide

/-- R173's example. -/
theorem test_radioPollRx : answer (exec .radioPollRx (radioUp .receivingContinuous
    [rd 0x40, rd 0x64, rd 0x28, rd 2, rd 0, rd 0, rd 0xDE, rd 0xAD, rd 0, rd 0, rd 0, rd 0])) =
    [.result 0x00 [0xFF, 0xC7, 0x28, 0x02, 0xDE, 0xAD]] := by decide

theorem test_radioPollRx_crc : statusAfter (exec .radioPollRx (radioUp .receivingContinuous
    [rd 0x60, rd 0, rd 0, rd 0, rd 0])) = 0x000209C7 := by decide

/-- R174's example. -/
theorem test_radioBlockingRx : answer (exec (.radioBlockingRx 25) (radioUp .standby
    [rd 0, rd 0, rd 0, rd 0, rd 0x40, rd 3, rd 0, rd 0, rd 1, rd 2, rd 3, rd 0, rd 0])) =
    [.result 0x00 [0x03, 0x01, 0x02, 0x03]] := by decide +kernel

theorem test_radioBlockingRx_timeout : outs (exec (.radioBlockingRx 0) (radioUp .standby
    [rd 0, rd 0, rd 0, rd 0, rd 0, rd 0])) =
    [[0x8F, 0x00], [0x8D, 0x00], [0x81, 0x85], [0x12, 0x00], [0x92, 0xFF], [0x81, 0x81]] := by
  decide

theorem test_radioSleep : outs (exec .radioSleep (radioUp .transmitting [rd 0])) =
    [[0x81, 0x80]] := by decide

theorem test_radioStandby : outs (exec .radioStandby (radioUp .transmitting [rd 0])) =
    [[0x81, 0x81]] := by decide

/-- R177's example. -/
theorem test_radioSetFrequency : outs (exec (.radioSetFrequency 433175000) (radioUp .sleep
    [rd 0, rd 0, rd 0])) = [[0x86, 0x6C], [0x87, 0x4B], [0x88, 0x33]] := by decide

/-- R178's example. -/
theorem test_radioSetBandwidth : outs (exec (.radioSetBandwidth 36475) (radioUp .sleep
    [rd 0x72, rd 0])) = [[0x1D, 0x00], [0x9D, 0x42]] := by decide

/-- R179's example. -/
theorem test_radioSetLnaAgc : outs (exec .radioSetLnaAgc (radioUp .sleep [rd 0x20, rd 0, rd 0])) =
    [[0x0C, 0x00], [0x8C, 0x23], [0xA6, 0x04]] := by decide

/-- R180's examples. -/
theorem test_radioSetTxPower :
    outs (exec (.radioSetTxPower (BitVec.ofInt 32 (-5))) (radioUp .sleep [rd 0])) =
      [[0x89, 0x80]] ∧
    outs (exec (.radioSetTxPower 20) (radioUp .sleep [rd 0])) = [[0x89, 0x8F]] := by decide

/-- R181's example. -/
theorem test_radioSetSf : outs (exec (.radioSetSf 6) (radioUp .sleep [rd 0, rd 0, rd 0x74, rd 0])) =
    [[0xB1, 0xC5], [0xB7, 0x0C], [0x1E, 0x00], [0x9E, 0x64]] := by decide

/-- R182's example. -/
theorem test_radioSetCr : outs (exec (.radioSetCr 8) (radioUp .sleep [rd 0x72, rd 0])) =
    [[0x1D, 0x00], [0x9D, 0x78]] := by decide

/-- R183's corner case: 70 000 is clamped. -/
theorem test_radioSetPreamble : outs (exec (.radioSetPreamble 70000) (radioUp .sleep
    [rd 0, rd 0])) = [[0xA0, 0xFF], [0xA1, 0xFF]] := by decide

/-- R184's corner case: the write is made while receiving, and rw_hazard set. -/
theorem test_radioSetSyncWord :
    outs (exec (.radioSetSyncWord 0x34) (radioUp .receivingContinuous [rd 0])) = [[0xB9, 0x34]] ∧
    statusAfter (exec (.radioSetSyncWord 0x34) (radioUp .receivingContinuous [rd 0])) =
      0x00000BC7 := by decide

/-- R185's examples. -/
theorem test_radioSetCrc :
    outs (exec (.radioSetCrc 0) (radioUp .sleep [rd 0x74, rd 0])) = [[0x1E, 0x00], [0x9E, 0x70]] ∧
    answer (exec (.radioSetCrc 2) (radioUp .sleep [])) = [.result 0x19 []] := by decide

/-- R230's example. -/
theorem test_canInit : outs (exec (.canInit 8000000 500000 0) (fresh
    [rdc 0, rdc 0, rdc 0, rdc 0, rdc 0])) = [[0xC0], [0x02, 0x2A, 0x00], [0x02, 0x29, 0x90],
      [0x02, 0x28, 0x82], [0x02, 0x0F, 0x00]] := by decide

theorem test_canInit_untabulated :
    statusAfter (exec (.canInit 8000000 250000 0) (fresh [rdc 0])) = 0x001209E0 := by decide

/-- R231's example. -/
theorem test_canSetMode : outs (exec (.canSetMode 3) (canUp [rdc 0])) = [[0x02, 0x0F, 0x60]] := by
  decide

/-- R232's example. -/
theorem test_canSend : outs (exec (.canSend 0x123 [0x11, 0x22, 0x33, 0x44]) (canUp
    [rdc 0, rdc 0, rdc 0, rdc 0, rdc 0, rdc 0, rdc 0, rdc 0])) =
    [[0x02, 0x31, 0x24], [0x02, 0x32, 0x60], [0x02, 0x35, 0x04], [0x02, 0x36, 0x11],
      [0x02, 0x37, 0x22], [0x02, 0x38, 0x33], [0x02, 0x39, 0x44], [0x81]] := by decide

/-- The 29-bit vector of 95_test_vectors.md. -/
theorem test_canSend_ext29 : outs (exec (.canSend 0x1ABCDEF0 [0x99]) (canUp29
    [rdc 0, rdc 0, rdc 0, rdc 0, rdc 0, rdc 0, rdc 0])) =
    [[0x02, 0x31, 0xD5], [0x02, 0x32, 0xE8], [0x02, 0x33, 0xDE], [0x02, 0x34, 0xF0],
      [0x02, 0x35, 0x01], [0x02, 0x36, 0x99], [0x81]] := by decide

/-- R233's example. -/
theorem test_canReceive :
    answer (exec .canReceive (canUp [rdc 3, rdc 0x24, rdc 0x60, rdc 4, rdc 0x11, rdc 0x22, rdc 0x33,
      rdc 0x44, rdc 0])) =
      [.result 0x00 [0x00, 0x00, 0x01, 0x23, 0x04, 0x11, 0x22, 0x33, 0x44]] := by decide

/-- A DLC of 15 reads eight bytes (95_test_vectors.md), and the other flag is written back. -/
theorem test_canReceive_dlc : (outs (exec .canReceive (canUp (rdc 3 :: rdc 0xFF :: rdc 0xE0 ::
    rdc 0x4F :: List.replicate 9 (rdc 1))))).getLast? = some [0x02, 0x2C, 0x02] := by decide

theorem test_lppEncReset : bufferAfter (exec .lppEncReset { fresh [] with encBuf := [1, 2] }) = [] :=
  by decide

/-- The examples of R255 and R256. -/
theorem test_lppEncDigital : bufferAfter (exec (.lppEncDigital 1 1) (fresh [])) = [1, 0, 1] := by
  decide

theorem test_lppEncAnalog :
    bufferAfter (exec (.lppEncAnalog 2 1234) (fresh [])) = [0x02, 0x02, 0x04, 0xD2] ∧
    answer (exec (.lppEncAnalog 2 32768) (fresh [])) = [.result 0x16 []] := by decide

/-- R257's example. -/
theorem test_lppEncAccel :
    bufferAfter (exec (.lppEncAccel 3 (BitVec.ofInt 32 (-9810)) 0 1000) (fresh [])) =
      [0x03, 0x71, 0xD9, 0xAE, 0x00, 0x00, 0x03, 0xE8] := by decide

/-- R258's example. -/
theorem test_lppEncGps : bufferAfter (exec (.lppEncGps 4 492354 70000 0) (fresh [])) =
    [0x04, 0x88, 0x07, 0x83, 0x42, 0x01, 0x11, 0x70, 0x00, 0x00, 0x00] := by decide

theorem test_lppEncRead : answer (exec .lppEncRead { fresh [] with encBuf := [1, 0, 1] }) =
    [.result 0x00 [3, 1, 0, 1]] := by decide

/-- R261's example: latitude -33.8688. -/
theorem test_lppDecode : answer (exec (.lppDecode [0x05, 0x88, 0xFA, 0xD5, 0x00, 0x17, 0x1A, 0x10,
    0x00, 0x13, 0x88]) (fresh [])) = [.result 0x00 [0x00, 0x01, 0x05, 0x88, 0xFF, 0xFA, 0xD5, 0x00,
      0x00, 0x17, 0x1A, 0x10, 0x00, 0x00, 0x13, 0x88]] := by decide

/-- R264's example ends CODEC_TRUNCATED. -/
theorem test_lppDecode_truncated : answer (exec (.lppDecode [0x01, 0x03, 0x00, 0x64, 0x02, 0x02,
    0x04, 0xD2]) (fresh [])) = [.result 0x17 []] := by decide

theorem test_busframes :
    outs (exec (.busframeRadioWrite 0x39 0x34) (fresh [rd 0])) = [[0xB9, 0x34]] ∧
    outs (exec (.busframeRadioRead 0x42) (fresh [rd 0])) = [[0x42, 0x00]] ∧
    outs (exec (.busframeCanWrite 0x0F 0x60) (fresh [rdc 0])) = [[0x02, 0x0F, 0x60]] ∧
    outs (exec (.busframeCanRead 0x2C) (fresh [rdc 0])) = [[0x03, 0x2C, 0x00]] ∧
    outs (exec .busframeCanReset (fresh [rdc 0])) = [[0xC0]] ∧
    outs (exec (.busframeCanRts 1) (fresh [rdc 0])) = [[0x81]] := by decide

theorem test_elements :
    answer (exec (.lppDigitalInput 5 0xFF) (fresh [])) = [.record [5, 0, 0, 0, 0, 0xFF]] ∧
    answer (exec (.lppAnalogInput 6 0x8000) (fresh [])) =
      [.record [6, 2, 0xFF, 0xFF, 0x80, 0x00]] ∧
    answer (exec (.lppAccelerometer 9 0xFFFE 0 1000) (fresh [])) =
      [.record [9, 0x71, 0xFF, 0xFF, 0xFF, 0xFE, 0, 0, 0, 0, 0, 0, 0x03, 0xE8]] ∧
    answer (exec (.lppGps 5 0xFAD500 0x800000 0x7FFFFF) (fresh [])) =
      [.record [5, 0x88, 0xFF, 0xFA, 0xD5, 0x00, 0xFF, 0x80, 0, 0, 0, 0x7F, 0xFF, 0xFF]] := by decide

/-! ## Steps and the assembler -/

theorem test_step_frame_errors :
    answer (step (handed [])) = [.result 0x1B []] ∧
    statusAfter (step (handed [0x00])) = 0x001809C0 ∧
    statusAfter (step (handed [0x03, 0x00])) = 0x001B09C0 := by decide

theorem test_step_withFetchWord :
    answer (step ((fresh []).withFetchWord 8 0x35)) = [.result 0x00 [0x00]] := by decide

/-- R262's examples. -/
theorem test_rha : rha (1234 / 100 * 100) = 1234 ∧ rha (-5 / 1000 * 100) = -1 ∧
    rha (125 / 1000 * 100) = 13 := by
  refine ⟨?_, ?_, ?_⟩ <;> norm_num [rha]
  · change ⌊(2469 / 2 : ℚ)⌋ = 1234
    rw [Int.floor_eq_iff]
    norm_num
  · rfl
  · rfl

/-- R120's example and one pseudo-instruction of R121. -/
theorem test_spelling :
    (Instr.canSend 0x123 [0x11]).spelling .reference = some "CAN_SEND 291, [17]" ∧
    (Instr.canSetMode 3).spelling .reference = some "CAN_SET_MODE LISTEN_ONLY" ∧
    Pseudo.expand .reference .radioRestartRx = some [.radioStandby, .radioStartRx] :=
  ⟨rfl, rfl, rfl⟩

/-! ## Witnesses: concrete states and operands that meet a statement's hypotheses -/

/-- None of the next `n` transactions of a state with scripted answers fails. -/
theorem answers_scripted {s : State} {n : Nat}
    (h : (decide (n ≤ s.replies.length) && s.replies.all (· != .fail)) = true) : s.answers n := by
  simp only [Bool.and_eq_true, decide_eq_true_eq, List.all_eq_true, bne_iff_ne] at h
  exact State.answers_of_replies h.1 h.2

theorem witness_DecodeInvertsEncode : LppCodes.reference.distinct = true ∧
    (Instr.busframeCanRts 4).fits = true ∧
    ∀ p : List Byte, p.length = 255 → (Instr.radioTransmit p).fits = true := by
  refine ⟨by decide, by decide, fun p h => ?_⟩
  simp [Instr.fits, h]

theorem witness_EncodeInvertsDecode :
    decodeInput .reference (.bus .radio [0xFF, 0xFF]) = some (.ok (.busframeRadioWrite 0x7F 0xFF)) ∧
    decodeInput .reference (.command [0x38, 0x00, 0x00]) = some (.ok (.lppDecode [])) :=
  ⟨by decide, rfl⟩

theorem witness_ReservedOpcodesRefused :
    ∀ op ∈ ([0x00, 0x04, 0x0F, 0x24, 0x2F, 0x36, 0x37, 0x39, 0xFF] : List Byte),
      (op = 0x00 ∨ (0x04 ≤ op ∧ op ≤ 0x0F) ∨ (0x24 ≤ op ∧ op ≤ 0x2F) ∨ op = 0x36 ∨ op = 0x37 ∨
        0x39 ≤ op) ∧ (handed [op]).inbox = [.command [op]] ∧ tableO op.toNat = none := by decide

theorem witness_FrameLengthRule :
    (handed []).inbox = [.command []] ∧
    (tableO 0x11 = some (.plusByte 2 1) ∧ [0x11].length ≠ (FrameLength.plusByte 2 1).of [0x11] ∧
      [0x11, 1].length ≠ (FrameLength.plusByte 2 1).of [0x11, 1]) ∧
    (tableO 0x38 = some (.plusWord 3 1) ∧
      [0x38, 0, 1, 7].length = (FrameLength.plusWord 3 1).of [0x38, 0, 1, 7]) := by decide

theorem witness_StepRunsDecodedInstruction : (handed [0x15]).inbox = [.command [0x15]] ∧
    decodeInput (handed [0x15]).params.lppCodes (.command [0x15]) = some (.ok .radioSleep) :=
  ⟨rfl, rfl⟩

theorem witness_IdleStepWaits : State.reset.inbox = [] := rfl

theorem witness_ResetRule :
    { fresh [] with inbox := [.coreReset] }.inbox = .coreReset :: [] ∧
    (∀ rest, (handed [0x03]).inbox ≠ .coreReset :: rest) ∧
    step (handed [0x03]) = exec .getStatus (fresh []) := ⟨rfl, by simp [handed], rfl⟩

/-- A state after construction is good. -/
theorem witness_StepKeepsGood : (radioUp .receivingContinuous []).Good ∧
    ∃ t, step (radioUp .receivingContinuous []) = .next t := by
  refine ⟨⟨by decide, by decide, by decide, by decide, by decide, by decide, by decide, by decide,
    by decide, by decide⟩, ⟨_, rfl⟩⟩

theorem witness_ParametersFixed : ∃ t, step (handed [0x03]) = .next t := ⟨_, rfl⟩

theorem witness_ObservationOnlyGrows : ∃ t, step (handed [0x03]) = .next t := ⟨_, rfl⟩

theorem witness_EndBookkeeping : (handed [0x03]).inbox = [.command [0x03]] ∧
    (handed []).inbox = [.command []] := ⟨rfl, rfl⟩

theorem witness_TransactionEffect :
    (fresh [.fail]).csRadio = false ∧ (fresh [.fail]).csCan = false ∧
    (fresh [.fail]).replies = [.fail] ∧
    (fresh [rd 0x12]).receivedAt 0 .radio [0x42, 0x00] = some [0, 0x12] ∧
    (fresh [.fail]).receivedAt 0 .radio [0x42, 0x00] = none ∧
    [(0 : Byte), 0x12].length = [(0x42 : Byte), 0x00].length := by decide

/-- A command whose one transaction fails, with the event it adds. -/
theorem witness_FailedTransactionEndsCommand :
    ∃ (t : State) (es : List Event),
      step { fresh [.fail] with inbox := [.command [0x02, 0x00, 0x42]] } = .next t ∧
      t.trace = [] ++ es ∧ .txn .radio [0x42, 0x00] none ∈ es :=
  ⟨_, [.txn .radio [0x42, 0x00] none], rfl, by decide, by decide⟩

theorem witness_FamiliesIndependent : (∃ t, exec .radioSleep (radioUp .standby [rd 0]) = .next t) ∧
    (∃ t, exec .lppEncReset (fresh []) = .next t) := ⟨⟨_, rfl⟩, ⟨_, rfl⟩⟩

theorem witness_BlockingIsBounded :
    (∃ t, exec (.radioTransmit [0x55]) (radioUp .standby []) = .next t) ∧
    (∃ t, exec (.radioBlockingRx 25) (radioUp .standby []) = .next t) ∧
    (∃ t, exec .canReceive (canUp [rdc 0]) = .next t ∧
      t.trace = (canUp [rdc 0]).trace ++ [.txn .can [0x03, 0x2C, 0x00] (some [0, 0, 0])]) :=
  ⟨⟨_, rfl⟩, ⟨_, rfl⟩, ⟨_, rfl, by decide⟩⟩

theorem witness_RadioGateRule :
    (Instr.radioTransmit [0]).radioGated testParams = true ∧
    (Instr.radioSetCrc 1).radioGated testParams = true ∧ (fresh []).radioLife = .uninit ∧
    { fresh [] with radioLife := RadioLife.failed }.radioLife = .failed ∧
    (fresh []).radioLife ≠ .failed := by decide

theorem witness_CanGateRule : (fresh []).canLife ≠ .ready ∧
    0b100 ∈ (fresh []).params.can.layout.modeCodes ∧
    canIdLegal (fresh []).params.canIdMode 0x7FF = true ∧ (List.replicate 8 (0 : Byte)).length ≤ 8 := by
  decide

theorem witness_ReservedOperandsRefused :
    ((2 : Byte) ≠ 0 ∧ (2 : Byte) ≠ 1) ∧ (0x02 : Byte) &&& 0xFE ≠ 0 ∧ (0x08 : Byte) &&& 0xF8 ≠ 0 ∧
    (0x01 : Byte).setWidth 3 ∉ (fresh []).params.can.layout.modeCodes ∧
    ((fresh []).params.canIdMode = .std11 ∧ 2 ^ 11 ≤ (0x800 : Word).toNat) ∧
    ((canUp29 []).params.canIdMode = .ext29 ∧ 2 ^ 29 ≤ (0x20000000 : Word).toNat) := by decide

theorem witness_LengthErrors : ([] : List Byte).length = 0 ∧
    { fresh [] with params := { testParams with maxPayload := 1 } }.params.maxPayload <
      [(0 : Byte), 0].length ∧
    canIdLegal (fresh []).params.canIdMode 0x7FF = true ∧ 8 < (List.replicate 9 (0 : Byte)).length := by
  decide

/-- A Ready radio and a command of each row of the table, with the status it ends with. -/
theorem witness_RadioStateTable :
    (radioUp .sleep [rd 0]).radioLife = .ready ∧
    (∃ t, exec .radioStandby (radioUp .sleep [rd 0]) = .next t ∧ t.lastStatus ≠ 0x11) ∧
    (∃ t, exec (.radioTransmit [0x55]) (radioUp .transmitting []) = .next t ∧
      t.lastStatus ≠ 0x11) ∧
    (∃ t, exec (.radioSetSyncWord 0x34) (radioUp .receivingContinuous [rd 0]) = .next t ∧
      t.lastStatus ≠ 0x11) ∧
    (∃ t, exec (.radioInit 868100000 125000 7 5 8 0x12 17 1) (radioUp .sleep initReplies) = .next t ∧
      t.lastStatus = 0x00) :=
  ⟨rfl, ⟨_, rfl, by decide⟩, ⟨_, rfl, by decide⟩, ⟨_, rfl, by decide⟩, ⟨_, rfl, by decide⟩⟩

theorem witness_HazardRule : (Instr.radioSetCrc 1).radioSetting = true ∧
    (radioUp .transmitting []).radioLife = .ready ∧
    ∃ t, exec (.radioSetCrc 1) (radioUp .transmitting []) = .next t := ⟨rfl, rfl, ⟨_, rfl⟩⟩

theorem witness_BusWriteRule :
    2 ^ (fresh []).params.radioAddrBits ≤ (0x80 : Byte).toNat ∧
    (0x7F : Byte).toNat < 2 ^ (fresh []).params.radioAddrBits ∧
    (fresh []).params.framing = .reference ∧
    (fresh [rd 0]).answerAt 0 .radio ((fresh []).params.framing.writeFrame .radio 0x7F 0) ≠ .fail ∧
    (fresh [.fail]).answerAt 0 .can ((fresh []).params.framing.writeFrame .can 0xFF 0) = .fail := by
  decide

theorem witness_BusReadRule :
    (fresh []).params.framing.readFrame .can 0xFF = [0x03, 0xFF, 0x00] ∧
    (fresh []).params.framing.readPosition .can < [0x03, 0xFF, 0x00].length ∧
    (fresh [rdc 0xAB]).receivedAt 0 .can [0x03, 0xFF, 0x00] = some [0, 0, 0xAB] ∧
    (0xFF : Byte).toNat < 2 ^ (fresh []).params.canAddrBits ∧
    (fresh [.fail]).receivedAt 0 .radio [0x42, 0x00] = none := by decide

theorem witness_GetStatusRule :
    { testParams with caps := ⟨false, false, false⟩ }.caps = ⟨false, false, false⟩ ∧
    testParams.canIdMode = .std11 := by decide

theorem witness_StatusWordFields : { fresh [] with encBuf := List.replicate 33 0 }.encBuf.length <
    256 := by decide

theorem witness_RadioInitCompletes : ((1 : Byte) = 0 ∨ (1 : Byte) = 1) ∧
    (fresh initReplies).radioLife ≠ .failed ∧ (fresh initReplies).answers 23 ∧
    (fresh initReplies).radioAt 0 RadioMap.version = (fresh initReplies).params.radioIdValue :=
  ⟨by decide, by decide, answers_scripted (by decide), by decide⟩

theorem witness_RadioInitIdentityMismatch : ((0 : Byte) = 0 ∨ (0 : Byte) = 1) ∧
    (fresh [rd 0x22]).radioLife ≠ .failed ∧ (fresh [rd 0x22]).answers 1 ∧
    (fresh [rd 0x22]).radioAt 0 RadioMap.version ≠ (fresh [rd 0x22]).params.radioIdValue :=
  ⟨by decide, by decide, answers_scripted (by decide), by decide⟩

/-- A one-byte payload: TxDone at the last read of the budget, and never. -/
theorem witness_TransmitCompletes :
    (radioUp .standby []).radioLife = .ready ∧ (radioUp .standby []).radioState = .standby ∧
    0 < [(0x55 : Byte)].length ∧ [(0x55 : Byte)].length ≤ (radioUp .standby []).params.maxPayload ∧
    (let s := radioUp .standby [rd 0, rd 0, rd 0, rd 0, rd 0, rd 0, rd 8, rd 0];
      2 < s.params.txPollBudget ∧
      (∀ j, j < 2 → (s.radioAt (4 + j) RadioMap.irqFlags).getLsbD 3 = false) ∧
      (s.radioAt (4 + 2) RadioMap.irqFlags).getLsbD 3 = true ∧ s.answers 8) ∧
    (let s := radioUp .standby [rd 0, rd 0, rd 0, rd 0, rd 0, rd 0, rd 0, rd 0, rd 0];
      (∀ j, j < s.params.txPollBudget → (s.radioAt (4 + j) RadioMap.irqFlags).getLsbD 3 = false) ∧
      s.answers (4 + s.params.txPollBudget + 2)) :=
  ⟨rfl, rfl, by decide, by decide,
    ⟨by decide, by decide, by decide, answers_scripted (by decide)⟩,
    ⟨by decide, answers_scripted (by decide)⟩⟩

theorem witness_StartRxCompletes : (radioUp .standby [rd 0, rd 0, rd 0]).radioLife = .ready ∧
    (radioUp .standby [rd 0, rd 0, rd 0]).radioState = .standby ∧
    (radioUp .standby [rd 0, rd 0, rd 0]).answers 3 :=
  ⟨rfl, rfl, answers_scripted (by decide)⟩

/-- The three outcomes, the third with an empty packet. -/
theorem witness_PollRxCompletes :
    (radioUp .receivingContinuous []).radioLife = .ready ∧
    (radioUp .receivingContinuous []).radioState = .receivingContinuous ∧
    (let s := radioUp .receivingContinuous [rd 0x20];
      (s.radioAt 0 RadioMap.irqFlags).getLsbD 6 = false ∧ s.answers 1) ∧
    (let s := radioUp .receivingContinuous [rd 0x60, rd 0, rd 0, rd 0, rd 0];
      (s.radioAt 0 RadioMap.irqFlags).getLsbD 6 = true ∧
      (s.radioAt 0 RadioMap.irqFlags).getLsbD 5 = true ∧ s.answers 5) ∧
    (let s := radioUp .receivingContinuous
      [rd 0x40, rd 0, rd 0, rd 0, rd 0, rd 0, rd 0, rd 0, rd 0, rd 0];
      (s.radioAt 0 RadioMap.irqFlags).getLsbD 6 = true ∧
      (s.radioAt 0 RadioMap.irqFlags).getLsbD 5 = false ∧
      s.answers (10 + (s.packetLength 3).toNat)) :=
  ⟨rfl, rfl, ⟨by decide, answers_scripted (by decide)⟩,
    ⟨by decide, by decide, answers_scripted (by decide)⟩,
    ⟨by decide, by decide, answers_scripted (by decide)⟩⟩

/-- A timeout of 10 ms, two reads: an event with a CRC error at the second, a packet of one byte at the
first, none at all. -/
theorem witness_BlockingRxCompletes :
    (radioUp .standby []).radioLife = .ready ∧ (radioUp .standby []).radioState = .standby ∧
    (let s := radioUp .standby [rd 0, rd 0, rd 0, rd 0, rd 0x60, rd 0, rd 0];
      1 < (10 : Word).toNat / s.params.rxPollIntervalMs + 1 ∧
      (∀ j, j < 1 → (s.radioAt (3 + j) RadioMap.irqFlags).getLsbD 6 = false) ∧
      (s.radioAt (3 + 1) RadioMap.irqFlags).getLsbD 6 = true ∧
      (s.radioAt (3 + 1) RadioMap.irqFlags).getLsbD 5 = true ∧ s.answers 7) ∧
    (let s := radioUp .standby [rd 0, rd 0, rd 0, rd 0x40, rd 1, rd 0, rd 0, rd 7, rd 0, rd 0];
      (s.radioAt 3 RadioMap.irqFlags).getLsbD 6 = true ∧
      (s.radioAt 3 RadioMap.irqFlags).getLsbD 5 = false ∧
      s.answers (0 + 9 + (s.packetLength (0 + 4)).toNat)) ∧
    (let s := radioUp .standby [rd 0, rd 0, rd 0, rd 0, rd 0, rd 0, rd 0];
      (∀ j, j < (10 : Word).toNat / s.params.rxPollIntervalMs + 1 →
        (s.radioAt (3 + j) RadioMap.irqFlags).getLsbD 6 = false) ∧
      s.answers ((10 : Word).toNat / s.params.rxPollIntervalMs + 1 + 5)) :=
  ⟨rfl, rfl, ⟨by decide, by decide, by decide, by decide, answers_scripted (by decide)⟩,
    ⟨by decide, by decide, answers_scripted (by decide)⟩,
    ⟨by decide, answers_scripted (by decide)⟩⟩

theorem witness_SleepRule : (radioUp .transmitting []).radioLife = .ready ∧
    (fresh []).radioLife = .uninit ∧
    (let s := radioUp .transmitting [rd 0];
      s.answerAt 0 (s.wrMode .sleep).1 (s.wrMode .sleep).2 ≠ .fail) ∧
    (let s := radioUp .transmitting [.fail];
      s.answerAt 0 (s.wrMode .sleep).1 (s.wrMode .sleep).2 =
        .fail) := by decide

theorem witness_StandbyRule : (radioUp .receivingContinuous []).radioLife = .ready ∧
    { fresh [] with radioLife := RadioLife.failed }.radioLife = .failed ∧
    (let s := radioUp .sleep [rd 0];
      s.answerAt 0 (s.wrMode .standby).1 (s.wrMode .standby).2 ≠ .fail) ∧
    (let s := radioUp .sleep [.fail];
      s.answerAt 0 (s.wrMode .standby).1 (s.wrMode .standby).2 =
        .fail) := by decide

theorem witness_PlainSettingsComplete :
    (radioUp .transmitting [rd 0, rd 0, rd 0]).radioLife = .ready ∧
    (radioUp .transmitting [rd 0, rd 0, rd 0]).answers 3 :=
  ⟨rfl, answers_scripted (by decide)⟩

theorem witness_FieldSettingsComplete :
    (radioUp .standby [rd 0, rd 0, rd 0, rd 0]).radioLife = .ready ∧
    (radioUp .standby [rd 0, rd 0, rd 0, rd 0]).answers 4 ∧ ((1 : Byte) = 0 ∨ (1 : Byte) = 1) :=
  ⟨rfl, answers_scripted (by decide), by decide⟩

/-- Both entries of the table, and a pair that is in neither. -/
theorem witness_CanInitCompletes : 0b100 ∈ (fresh []).params.can.layout.modeCodes ∧
    (testParams.timingA.crystalHz = (8000000 : Word).toNat ∧
      testParams.timingA.bitrate = (500000 : Word).toNat) ∧
    (testParams.timingB.crystalHz = (16000000 : Word).toNat ∧
      testParams.timingB.bitrate = (500000 : Word).toNat ∧
      testParams.timingA.crystalHz ≠ (16000000 : Word).toNat) ∧
    (testParams.timingA.bitrate ≠ (250000 : Word).toNat ∧
      testParams.timingB.bitrate ≠ (250000 : Word).toNat) ∧
    (fresh [rdc 0, rdc 0, rdc 0, rdc 0, rdc 0]).answers 5 :=
  ⟨by decide, by decide, by decide, by decide, answers_scripted (by decide)⟩

theorem witness_CanSetModeRule : (canUp []).canLife = .ready ∧ (fresh []).canLife ≠ .ready ∧
    (1 : Byte).setWidth 3 ∉ (canUp []).params.can.layout.modeCodes ∧ 8 ≤ (8 : Byte).toNat ∧
    ((3 : Byte).toNat < 8 ∧ (3 : Byte).setWidth 3 ∈ (canUp []).params.can.layout.modeCodes) ∧
    (canUp [rdc 0]).answerAt 0 .can [0x02, 0x0F, 0x60] ≠ .fail ∧
    (canUp [.fail]).answerAt 0 .can [0x02, 0x0F, 0x60] = .fail := by decide

/-- The widest identifiers with eight bytes of data. -/
theorem witness_CanSendCompletes :
    (canUp (List.replicate 12 (rdc 0))).canLife = .ready ∧
    (canUp (List.replicate 12 (rdc 0))).params.canIdMode = .std11 ∧
    canIdLegal .std11 0x7FF = true ∧ (List.replicate 8 (0 : Byte)).length ≤ 8 ∧
    (canUp (List.replicate 12 (rdc 0))).answers
      (CanIdMode.std11.registers + 2 + (List.replicate 8 (0 : Byte)).length) ∧
    (canUp29 (List.replicate 14 (rdc 0))).params.canIdMode = .ext29 ∧
    canIdLegal .ext29 0x1FFFFFFF = true ∧
    (canUp29 (List.replicate 14 (rdc 0))).answers
      (CanIdMode.ext29.registers + 2 + (List.replicate 8 (0 : Byte)).length) :=
  ⟨rfl, by decide, by decide, by decide, answers_scripted (by decide), by decide, by decide,
    answers_scripted (by decide)⟩

/-- An empty buffer, and a full one whose DLC register reads 15. -/
theorem witness_CanReceiveCompletes :
    (canUp []).canLife = .ready ∧
    ((canUp [rdc 2]).readAt 0 .can 0x2C).getLsbD 0 = false ∧ (canUp [rdc 2]).answers 1 ∧
    ((canUp (List.replicate 13 (rdc 0xFF))).readAt 0 .can 0x2C).getLsbD 0 = true ∧
    (canUp (List.replicate 13 (rdc 0xFF))).answers (CanIdMode.std11.registers + 3 +
      min (CanLayout.reference.dlc.get ((canUp (List.replicate 13 (rdc 0xFF))).readAt 3 .can 0x65)).toNat
        8) ∧
    ((canUp29 (List.replicate 15 (rdc 0xFF))).readAt 0 .can 0x2C).getLsbD 0 = true ∧
    (canUp29 (List.replicate 15 (rdc 0xFF))).answers (CanIdMode.ext29.registers + 3 +
      min (CanLayout.reference.dlc.get
        ((canUp29 (List.replicate 15 (rdc 0xFF))).readAt 5 .can 0x65)).toNat 8) :=
  ⟨rfl, by decide, answers_scripted (by decide), by decide, answers_scripted (by decide), by decide,
    answers_scripted (by decide)⟩

/-- The device's answers of the loopback witness: the flag, then what the send wrote. -/
def loopReplies : List Answer :=
  [rdc 1, rdc 0x24, rdc 0x60, rdc 1, rdc 0x11] ++ List.replicate 10 (rdc 0)

/-- What the send of the loopback witness adds to the trace. -/
def loopEvents : List Event :=
  [[0x02, 0x31, 0x24], [0x02, 0x32, 0x60], [0x02, 0x35, 0x01], [0x02, 0x36, 0x11]].map
    (fun out => .txn .can out (some [0, 0, 0])) ++ [.txn .can [0x81] (some [0])]

/-- CAN_SEND 0x123, [0x11] and a device that answers with what it wrote. -/
theorem witness_CanLoopback :
    (canUp []).params.can.layout = .reference ∧
    canIdLegal (canUp []).params.canIdMode 0x123 = true ∧ [(0x11 : Byte)].length ≤ 8 ∧
    (∃ t, exec (.canSend 0x123 [0x11]) (canUp (List.replicate 4 (rdc 0) ++ [.shift [0]])) = .next t ∧
      t.lastStatus = 0x00 ∧ t.trace = [] ++ loopEvents) ∧
    (canUp loopReplies).canLife = .ready ∧ (canUp loopReplies).answers 15 ∧
    rxFull .reference 0 ((canUp loopReplies).readAt 0 .can 0x2C) = true ∧
    (∀ (k : Nat) (offset : Byte), (testParams.can.frameOffsets .std11 1)[k]? = some offset →
      ∀ v ins, .txn .can (testParams.framing.writeFrame .can (testParams.txb + offset) v) (some ins) ∈
        loopEvents → (canUp loopReplies).readAt (k + 1) .can (testParams.rxb + offset) = v) := by
  refine ⟨rfl, by decide, by decide, ⟨_, rfl, by decide, by decide⟩, rfl, answers_scripted (by decide),
    by decide, ?_⟩
  intro k offset hk v ins hv
  match k, hk with
  | 0, hk | 1, hk | 2, hk | 3, hk =>
    cases hk
    revert hv
    simp [loopEvents, testParams, Params.txb, Config.params, CanMap.reference, Framing.writeFrame,
      Framing.of, Framing.reference, FrameByte.byte]
    rintro rfl rfl
    decide
  | k + 4, hk => simp [CanMap.frameOffsets, CanMap.idOffsets, CanIdMode.registers] at hk

/-- An unknown type, a value one byte short and a value of exactly its length. -/
theorem witness_DecoderWalk : testParams.lppCodes.kindOf 0x42 = none ∧
    testParams.lppCodes.kindOf 0x02 = some .analogInput ∧
    [(4 : Byte)].length < LppKind.analogInput.fields * LppKind.analogInput.width ∧
    LppKind.analogInput.fields * LppKind.analogInput.width ≤ [(4 : Byte), 0xD2].length := by decide

theorem witness_LppDecodeRule :
    [(5 : Byte), 0, 0xFF].length = (0 : Byte).toNat * 256 + (3 : Byte).toNat ∧
    decodeStream testParams [5, 0, 0xFF] = .ok [⟨5, 0, [255]⟩] ∧
    decodeStream testParams [2, 2, 4] = .error .codecTruncated := ⟨by decide, rfl, rfl⟩

/-- Two elements, at the ends of their fields' ranges. -/
theorem witness_CodecRoundTrip : testParams.lppCodes.distinct = true ∧
    (∀ e ∈ [(LppKind.gps, (4 : Byte), [(-8388608 : Int), 8388607, 0]), (.digitalInput, 1, [255])],
      e.2.2.length = e.1.fields) ∧
    [(LppKind.gps, (4 : Byte), [(-8388608 : Int), 8388607, 0]), (.digitalInput, 1, [255])].map
        (fun e => encodeElement testParams.lppCodes e.1 e.2.1 e.2.2) =
      [[0x04, 0x88, 0x80, 0x00, 0x00, 0x7F, 0xFF, 0xFF, 0x00, 0x00, 0x00], [0x01, 0x00, 0xFF]].map
        some := ⟨by decide, by decide, by decide⟩

theorem witness_HostScaling : 0 < 100 ∧
    ∀ q ∈ [(1 : ℚ) * 100, 1 * 1000, 1 * 10000], -(2 ^ 31) ≤ rha q ∧ rha q < 2 ^ 31 := by
  refine ⟨by decide, ?_⟩
  simp only [List.mem_cons, List.not_mem_nil, or_false, forall_eq_or_imp, forall_eq]
  refine ⟨?_, ?_, ?_⟩ <;> decide +kernel

theorem witness_ElementsAgreeWithDecoder : testParams.lppCodes.distinct = true ∧
    encode testParams.lppCodes (.lppDigitalInput 5 0xFF) = .element [5, 0, 0xFF] := ⟨by decide, rfl⟩

/-- The unclamped range ends between these two frequencies. -/
theorem witness_FrequencyRoundTrip :
    0 < 32000000 ∧ 2 * (1023999969 * 2 ^ 19) < (2 ^ 25 - 1) * 32000000 ∧
    ¬ 2 * (1023999970 * 2 ^ 19) < (2 ^ 25 - 1) * 32000000 ∧ 1023999970 ≤ 1024000000 := by decide

theorem witness_BandwidthNearest : testParams.bwTable ≠ [] ∧ testParams.bwTable = bwTableReference ∧
    testParams.bwDefaultCode = 7 ∧ 36475 ≠ 0 := by decide

/-- Each setting of the clamp law with operands out of range, and the RADIO_INIT of the test vectors. -/
theorem witness_ClampLaw : (fresh []).params.framing = .reference ∧
    (fresh []).params.radio = .reference ∧
    (∃ t, exec (.radioSetSf 99) (radioUp .sleep [rd 0, rd 0, rd 0x74, rd 0]) = .next t ∧
      t.trace = [] ++ [.txn .radio [0xB1, 0xC3] (some [0, 0]), .txn .radio [0xB7, 0x0A] (some [0, 0]),
        .txn .radio [0x1E, 0x00] (some [0, 0x74]), .txn .radio [0x9E, 0xC4] (some [0, 0])]) ∧
    (∃ t, exec (.radioSetBandwidth 0) (radioUp .sleep [rd 0x72, rd 0]) = .next t ∧
      t.trace = [] ++ [.txn .radio [0x1D, 0x00] (some [0, 0x72]),
        .txn .radio [0x9D, 0x72] (some [0, 0])]) ∧
    (∃ t, exec (.radioInit 868100000 125000 7 5 8 0x12 17 1) (fresh initReplies) = .next t ∧
      (t.trace.filter Event.isTxn)[14]? = some (.txn .radio [0x9E, 0x70] (some [0, 0])) ∧
      (t.trace.filter Event.isTxn)[16]? = some (.txn .radio [0x9D, 0x72] (some [0, 0])) ∧
      (t.trace.filter Event.isTxn)[6]? = some (.txn .radio [0x9D, 0x72] (some [0, 0]))) :=
  ⟨rfl, rfl, ⟨_, rfl, by decide⟩, ⟨_, rfl, by decide⟩, ⟨_, rfl, by decide, by decide, by decide⟩⟩

/-- Bus errors before and after the mode writes of RADIO_TRANSMIT, RADIO_BLOCKING_RX and RADIO_INIT, and
in CAN_INIT. -/
theorem witness_BusErrorKeepsRecords :
    (∃ t, exec (.radioTransmit [0x55]) (radioUp .standby [rd 0, rd 0, rd 0, .fail]) = .next t ∧
      t.outbox = [] ++ [.result 0x11 []] ∧ t.draws = 4 ∧ t.radioState = .standby) ∧
    (∃ t, exec (.radioTransmit [0x55]) (radioUp .standby [rd 0, rd 0, rd 0, rd 0, .fail]) = .next t ∧
      t.outbox = [] ++ [.result 0x11 []] ∧ t.draws = 5 ∧ t.radioState = .transmitting) ∧
    (∃ t, exec (.radioBlockingRx 0) (radioUp .standby [rd 0, rd 0, rd 0, .fail]) = .next t ∧
      t.outbox = [] ++ [.result 0x11 []] ∧ t.radioState = .receivingContinuous) ∧
    (∃ t, exec (.radioInit 0 0 7 5 8 0 17 1) { radioUp .standby [rd 0x12, .fail] with
        radioLife := .uninit } = .next t ∧
      t.outbox = [] ++ [.result 0x11 []] ∧ t.draws = 2 ∧ t.radioState = .standby) ∧
    (∃ t, exec (.canInit 8000000 500000 3) (fresh [rdc 0, rdc 0, rdc 0, rdc 0, .fail]) = .next t ∧
      t.outbox = [] ++ [.result 0x11 []] ∧ t.canLife = .uninit ∧ t.canMode = 0b111) :=
  ⟨⟨_, rfl, by decide, by decide, by decide⟩, ⟨_, rfl, by decide, by decide, by decide⟩,
    ⟨_, rfl, by decide, by decide⟩, ⟨_, rfl, by decide, by decide, by decide⟩,
    ⟨_, rfl, by decide, by decide, by decide⟩⟩

/-- The ends of the clamped ranges. -/
theorem witness_ReferenceProfile : (6 : Int) ≤ 6 ∧ (12 : Int) ≤ 12 ∧ (5 : Int) ≤ 5 ∧ (8 : Int) ≤ 8 ∧
    8 ≤ 8 ∧ 2 < 3 ∧ 1 < 2 := by decide

end Sys2Proof.Tests
end

section
/-! What every step keeps (00_scope.md). A relation between states that every single operation of a
command respects holds across every command, and a step is one command, one transaction, one answer, the
core's reset or a wait. The parameters' being the same is such a relation (R8). -/

namespace Sys2Proof.Machine

open Sys2Proof

/-! ## Relations that the operations of a command respect -/

/-- A reflexive and transitive relation that holds between a state and what any one operation leaves of
it: the transaction, the lines, the waits and the writes of single records. -/
structure OperationClosed (R : State → State → Prop) : Prop where
  refl : ∀ s, R s s
  trans : ∀ a b c, R a b → R b c → R a c
  afterTxn : ∀ s d out, R s (s.afterTxn d out)
  pin : ∀ s line level, R s ((s.setLine line level).logged (.pin line level))
  wait : ∀ s w n, R s (s.logged (.delay w n))
  writeRadioState : ∀ s m, R s (s.setRadioState m)
  writeRadioLife : ∀ s l, R s (s.setRadioLife l)
  hazardChecked : ∀ s : State, R s s.hazardChecked
  writeCanLife : ∀ s l, R s (s.setCanLife l)
  writeCanMode : ∀ s m, R s (s.setCanMode m)
  clearBuffer : ∀ s : State, R s (s.setEncBuf [])
  append : ∀ (s : State) (el : List Byte), s.encBuf.length + el.length ≤ s.params.encCap →
    R s (s.setEncBuf (s.encBuf ++ el))

/-- A command that starts in `s` answers a next state: the one its bookkeeping (60_exceptions.md R305)
makes of a state related to `s`. -/
def EndsVia (R : State → State → Prop) (s : State) (o : Host.Outcome State Fault Refusal) : Prop :=
  ∃ u st data, R s u ∧ o = .next (u.ended st data)

section Closed

variable {R : State → State → Prop}

theorem Act.Keeps.runCommand_endsVia {body : Act (Status × List Byte)} (h : Act.Keeps R body)
    (s : State) : EndsVia R s (runCommand body s) := by
  have hs := h s
  rw [runCommand_next]
  obtain ⟨r, u, hu, he⟩ | ⟨st, u, hu, he⟩ := State.afterCommand_cases s body
  · rw [hu] at hs
    exact ⟨u, r.1, r.2, hs, by rw [he]⟩
  · rw [hu] at hs
    exact ⟨u, st, [], hs, by rw [he]⟩

namespace OperationClosed

variable (hR : OperationClosed R)
include hR

/-! ## The primitives (40_transport_and_control.md section 1, 60_exceptions.md R302) -/

theorem keeps_bind {α β : Type} {x : Act α} {f : α → Act β} (hx : Act.Keeps R x)
    (hf : ∀ a, Act.Keeps R (f a)) : Act.Keeps R (x >>= f) :=
  Act.keeps_bind hR.trans hx hf

/-- A sequence that reads the parameters first. -/
theorem keeps_withParams {β : Type} {f : Params → Act β} (hf : ∀ p, Act.Keeps R (f p)) :
    Act.Keeps R (params >>= f) :=
  hR.keeps_bind (Act.keeps_params hR.refl) hf

theorem keeps_pure {α : Type} (a : α) : Act.Keeps R (pure a : Act α) := Act.keeps_pure hR.refl a

theorem keeps_throw {α : Type} (e : Status) : Act.Keeps R (throw e : Act α) :=
  Act.keeps_throw hR.refl e

theorem keeps_done : Act.Keeps R done := hR.keeps_pure _

theorem keeps_doneWith (st : Status) : Act.Keeps R (doneWith st) := hR.keeps_pure _

theorem keeps_doneData (data : List Byte) : Act.Keeps R (doneData data) := hR.keeps_pure _

theorem keeps_require (c : Bool) (e : Status) : Act.Keeps R (require c e) :=
  Act.keeps_require hR.refl c e

theorem keeps_radioGate : Act.Keeps R radioGate := Act.keeps_radioGate hR.refl

theorem keeps_requireRadioState (m : RadioState) : Act.Keeps R (requireRadioState m) :=
  Act.keeps_requireRadioState hR.refl m

theorem keeps_canGate : Act.Keeps R canGate := Act.keeps_canGate hR.refl

theorem keeps_setPin (line : Line) (level : Bool) : Act.Keeps R (setPin line level) :=
  fun s => hR.pin s line level

theorem keeps_delay (w : Wait) (n : Nat) : Act.Keeps R (delay w n) := fun s => hR.wait s w n

theorem keeps_txn (d : Device) (out : List Byte) : Act.Keeps R (txn d out) :=
  Act.keeps_txn hR.afterTxn d out

theorem keeps_busWrite (d : Device) (a v : Byte) : Act.Keeps R (busWrite d a v) :=
  hR.keeps_withParams fun _ => hR.keeps_bind (hR.keeps_txn _ _) fun _ => hR.keeps_pure _

theorem keeps_busRead (d : Device) (a : Byte) : Act.Keeps R (busRead d a) :=
  hR.keeps_withParams fun _ => hR.keeps_bind (hR.keeps_txn _ _) fun _ => hR.keeps_pure _

theorem keeps_busCmd (d : Device) (bytes : List Byte) : Act.Keeps R (busCmd d bytes) :=
  hR.keeps_bind (hR.keeps_txn _ _) fun _ => hR.keeps_pure _

theorem keeps_radioWrite (reg : RadioMap → Byte) (v : Byte) : Act.Keeps R (radioWrite reg v) :=
  hR.keeps_withParams fun _ => hR.keeps_busWrite _ _ _

theorem keeps_radioRead (reg : RadioMap → Byte) : Act.Keeps R (radioRead reg) :=
  hR.keeps_withParams fun _ => hR.keeps_busRead _ _

theorem keeps_canWrite (reg : CanMap → Byte) (v : Byte) : Act.Keeps R (canWrite reg v) :=
  hR.keeps_withParams fun _ => hR.keeps_busWrite _ _ _

theorem keeps_canRead (reg : CanMap → Byte) : Act.Keeps R (canRead reg) :=
  hR.keeps_withParams fun _ => hR.keeps_busRead _ _

/-- A radio register written with a value made from what another read of the radio returns. -/
theorem keeps_radioModify (reg reg' : RadioMap → Byte) (f : Byte → Byte) :
    Act.Keeps R (do let r ← radioRead reg; radioWrite reg' (f r)) :=
  hR.keeps_bind (hR.keeps_radioRead _) fun _ => hR.keeps_radioWrite _ _

/-! ## The radio's register sequences (41_radio.md section 2) -/

theorem keeps_setMode (m : RadioState) : Act.Keeps R (setMode m) :=
  hR.keeps_withParams fun _ =>
    hR.keeps_bind (hR.keeps_radioWrite _ _) fun _ => fun s => hR.writeRadioState s m

theorem keeps_setFrequency (f : Nat) : Act.Keeps R (setFrequency f) :=
  hR.keeps_withParams fun _ =>
    hR.keeps_bind (hR.keeps_radioWrite _ _) fun _ =>
    hR.keeps_bind (hR.keeps_radioWrite _ _) fun _ => hR.keeps_radioWrite _ _

theorem keeps_setBandwidth (bw : Nat) : Act.Keeps R (setBandwidth bw) :=
  hR.keeps_withParams fun _ => hR.keeps_radioModify _ _ _

theorem keeps_setLnaAgc : Act.Keeps R setLnaAgc :=
  hR.keeps_withParams fun _ =>
    hR.keeps_bind (hR.keeps_radioRead _) fun _ =>
    hR.keeps_bind (hR.keeps_radioWrite _ _) fun _ => hR.keeps_radioWrite _ _

theorem keeps_setTxPower (p : Int) : Act.Keeps R (setTxPower p) :=
  hR.keeps_withParams fun _ => hR.keeps_radioWrite _ _

theorem keeps_setSpreadingFactor (sf : Int) : Act.Keeps R (setSpreadingFactor sf) :=
  hR.keeps_withParams fun _ =>
    hR.keeps_bind (hR.keeps_radioWrite _ _) fun _ =>
    hR.keeps_bind (hR.keeps_radioWrite _ _) fun _ => hR.keeps_radioModify _ _ _

theorem keeps_setCodingRate (c : Int) : Act.Keeps R (setCodingRate c) :=
  hR.keeps_withParams fun _ => hR.keeps_radioModify _ _ _

theorem keeps_setPreamble (n : Nat) : Act.Keeps R (setPreamble n) :=
  hR.keeps_bind (hR.keeps_radioWrite _ _) fun _ => hR.keeps_radioWrite _ _

theorem keeps_setSyncWord (w : Byte) : Act.Keeps R (setSyncWord w) := hR.keeps_radioWrite _ _

theorem keeps_setCrc (e : Bool) : Act.Keeps R (setCrc e) :=
  hR.keeps_withParams fun _ => hR.keeps_radioModify _ _ _

theorem keeps_resetFifoTx : Act.Keeps R resetFifoTx :=
  hR.keeps_withParams fun _ => hR.keeps_radioWrite _ _

theorem keeps_resetFifoRx : Act.Keeps R resetFifoRx :=
  hR.keeps_withParams fun _ =>
    hR.keeps_bind (hR.keeps_radioWrite _ _) fun _ => hR.keeps_radioWrite _ _

theorem keeps_restartRx : Act.Keeps R restartRx :=
  hR.keeps_bind hR.keeps_resetFifoRx fun _ => hR.keeps_setMode _

theorem keeps_readFifo (n : Nat) : Act.Keeps R (readFifo n) := by
  induction n with
  | zero => exact hR.keeps_pure []
  | succ n ih =>
    exact hR.keeps_bind (hR.keeps_radioRead _) fun _ => hR.keeps_bind ih fun _ => hR.keeps_pure _

theorem keeps_writeFifo (bs : List Byte) : Act.Keeps R (writeFifo bs) := by
  induction bs with
  | nil => exact hR.keeps_pure ()
  | cons b bs ih => exact hR.keeps_bind (hR.keeps_radioWrite _ _) fun _ => ih

theorem keeps_readPacket : Act.Keeps R readPacket :=
  hR.keeps_bind (hR.keeps_radioRead _) fun _ =>
  hR.keeps_bind (hR.keeps_radioRead _) fun _ =>
  hR.keeps_bind (hR.keeps_radioWrite _ _) fun _ =>
  hR.keeps_bind (hR.keeps_readFifo _) fun _ => hR.keeps_pure _

theorem keeps_pollTxDone (n : Nat) : Act.Keeps R (pollTxDone n) := by
  induction n with
  | zero => exact hR.keeps_pure false
  | succ n ih =>
    refine hR.keeps_withParams fun _ => hR.keeps_bind (hR.keeps_radioRead _) fun _ => ?_
    exact Act.keeps_ite (hR.keeps_pure _)
      (Act.keeps_ite (hR.keeps_pure _) (hR.keeps_bind (hR.keeps_delay _ _) fun _ => ih))

theorem keeps_pollRxDone (n : Nat) : Act.Keeps R (pollRxDone n) := by
  induction n with
  | zero => exact hR.keeps_pure none
  | succ n ih =>
    refine hR.keeps_withParams fun _ => hR.keeps_bind (hR.keeps_radioRead _) fun _ => ?_
    exact Act.keeps_ite (hR.keeps_pure _)
      (Act.keeps_ite (hR.keeps_pure _) (hR.keeps_bind (hR.keeps_delay _ _) fun _ => ih))

theorem keeps_pulseReset : Act.Keeps R pulseReset :=
  hR.keeps_withParams fun _ => Act.keeps_ite
    (hR.keeps_bind (hR.keeps_setPin _ _) fun _ =>
      hR.keeps_bind (hR.keeps_delay _ _) fun _ =>
      hR.keeps_bind (hR.keeps_setPin _ _) fun _ => hR.keeps_delay _ _)
    (hR.keeps_pure _)

theorem keeps_checkIdentity : Act.Keeps R checkIdentity :=
  hR.keeps_withParams fun _ => hR.keeps_bind (hR.keeps_radioRead _) fun _ =>
    Act.keeps_ite (hR.keeps_pure _)
      (hR.keeps_bind (fun s => hR.writeRadioLife s _) fun _ => hR.keeps_throw _)

theorem keeps_notFailed : Act.Keeps R notFailed := by
  intro s
  unfold notFailed
  split <;> exact hR.refl s

theorem keeps_configure {sequence : Act Unit} (h : Act.Keeps R sequence) :
    Act.Keeps R (configure sequence) :=
  hR.keeps_bind hR.keeps_radioGate fun _ =>
  hR.keeps_bind (fun s => hR.hazardChecked s) fun _ => hR.keeps_bind h fun _ => hR.keeps_done

/-! ## The radio's commands (41_radio.md section 5) -/

theorem endsVia_radioInit (freq bw sf cr preamble : Word) (sync : Byte) (txpow : Word) (crc : Byte)
    (s : State) : EndsVia R s (execRadioInit freq bw sf cr preamble sync txpow crc s) := by
  refine Act.Keeps.runCommand_endsVia ?_ s
  exact hR.keeps_bind (hR.keeps_require _ _) fun _ =>
    hR.keeps_bind hR.keeps_notFailed fun _ =>
    hR.keeps_bind hR.keeps_pulseReset fun _ =>
    hR.keeps_bind hR.keeps_checkIdentity fun _ =>
    hR.keeps_bind (hR.keeps_setMode _) fun _ =>
    hR.keeps_bind (hR.keeps_setFrequency _) fun _ =>
    hR.keeps_bind (hR.keeps_setBandwidth _) fun _ =>
    hR.keeps_bind hR.keeps_setLnaAgc fun _ =>
    hR.keeps_bind (hR.keeps_setTxPower _) fun _ =>
    hR.keeps_bind (hR.keeps_setSpreadingFactor _) fun _ =>
    hR.keeps_bind (hR.keeps_setCodingRate _) fun _ =>
    hR.keeps_bind (hR.keeps_setPreamble _) fun _ =>
    hR.keeps_bind (hR.keeps_setSyncWord _) fun _ =>
    hR.keeps_bind (hR.keeps_setCrc _) fun _ =>
    hR.keeps_bind (hR.keeps_setMode _) fun _ =>
    hR.keeps_bind (fun s => hR.writeRadioLife s _) fun _ => hR.keeps_done

theorem endsVia_radioTransmit (payload : List Byte) (s : State) :
    EndsVia R s (execRadioTransmit payload s) := by
  refine Act.Keeps.runCommand_endsVia ?_ s
  refine hR.keeps_withParams fun _ =>
    hR.keeps_bind (hR.keeps_require _ _) fun _ =>
    hR.keeps_bind hR.keeps_radioGate fun _ =>
    hR.keeps_bind (hR.keeps_requireRadioState _) fun _ =>
    hR.keeps_bind hR.keeps_resetFifoTx fun _ =>
    hR.keeps_bind (hR.keeps_writeFifo _) fun _ =>
    hR.keeps_bind (hR.keeps_radioWrite _ _) fun _ =>
    hR.keeps_bind (hR.keeps_setMode _) fun _ =>
    hR.keeps_bind (hR.keeps_pollTxDone _) fun _ =>
    hR.keeps_bind (hR.keeps_radioWrite _ _) fun _ => Act.keeps_ite ?seen ?timeout
  case seen => exact hR.keeps_bind (fun s => hR.writeRadioState s _) fun _ => hR.keeps_done
  case timeout => exact hR.keeps_bind (hR.keeps_setMode _) fun _ => hR.keeps_doneWith _

theorem endsVia_radioStartRx (s : State) : EndsVia R s (execRadioStartRx s) := by
  refine Act.Keeps.runCommand_endsVia ?_ s
  exact hR.keeps_bind hR.keeps_radioGate fun _ =>
    hR.keeps_bind (hR.keeps_requireRadioState _) fun _ =>
    hR.keeps_bind hR.keeps_resetFifoRx fun _ =>
    hR.keeps_bind (hR.keeps_setMode _) fun _ => hR.keeps_done

theorem endsVia_radioPollRx (s : State) : EndsVia R s (execRadioPollRx s) := by
  refine Act.Keeps.runCommand_endsVia ?_ s
  refine hR.keeps_bind hR.keeps_radioGate fun _ =>
    hR.keeps_bind (hR.keeps_requireRadioState _) fun _ =>
    hR.keeps_withParams fun _ =>
    hR.keeps_bind (hR.keeps_radioRead _) fun _ =>
    Act.keeps_ite (Act.keeps_ite ?dropped ?received) (hR.keeps_doneWith _)
  case dropped =>
    exact hR.keeps_bind (hR.keeps_radioWrite _ _) fun _ =>
      hR.keeps_bind hR.keeps_restartRx fun _ => hR.keeps_doneWith _
  case received =>
    exact hR.keeps_bind (hR.keeps_radioRead _) fun _ =>
      hR.keeps_bind (hR.keeps_radioRead _) fun _ =>
      hR.keeps_bind hR.keeps_readPacket fun _ =>
      hR.keeps_bind (hR.keeps_radioWrite _ _) fun _ =>
      hR.keeps_bind hR.keeps_restartRx fun _ => hR.keeps_doneData _

theorem endsVia_radioBlockingRx (timeoutMs : Word) (s : State) :
    EndsVia R s (execRadioBlockingRx timeoutMs s) := by
  refine Act.Keeps.runCommand_endsVia ?_ s
  refine hR.keeps_bind hR.keeps_radioGate fun _ =>
    hR.keeps_bind (hR.keeps_requireRadioState _) fun _ =>
    hR.keeps_bind hR.keeps_resetFifoRx fun _ =>
    hR.keeps_bind (hR.keeps_setMode _) fun _ =>
    hR.keeps_withParams fun _ =>
    hR.keeps_bind (hR.keeps_pollRxDone _) fun event => ?_
  cases event with
  | none =>
    exact hR.keeps_bind (hR.keeps_radioWrite _ _) fun _ =>
      hR.keeps_bind (hR.keeps_setMode _) fun _ => hR.keeps_doneWith _
  | some f =>
    refine Act.keeps_ite ?dropped ?received
    case dropped =>
      exact hR.keeps_bind (hR.keeps_radioWrite _ _) fun _ =>
        hR.keeps_bind (hR.keeps_setMode _) fun _ => hR.keeps_doneWith _
    case received =>
      exact hR.keeps_bind hR.keeps_readPacket fun _ =>
        hR.keeps_bind (hR.keeps_radioWrite _ _) fun _ =>
        hR.keeps_bind (hR.keeps_setMode _) fun _ => hR.keeps_doneData _

/-- The commands that write one mode (R175, R176). -/
theorem endsVia_modeCommand (m : RadioState) (s : State) :
    EndsVia R s (runCommand (do radioGate; setMode m; done) s) := by
  refine Act.Keeps.runCommand_endsVia ?_ s
  exact hR.keeps_bind hR.keeps_radioGate fun _ =>
    hR.keeps_bind (hR.keeps_setMode _) fun _ => hR.keeps_done

/-- The commands that set one parameter of the radio (R177 to R184). -/
theorem endsVia_configure {sequence : Act Unit} (h : Act.Keeps R sequence) (s : State) :
    EndsVia R s (runCommand (configure sequence) s) :=
  (hR.keeps_configure h).runCommand_endsVia s

theorem endsVia_radioSetCrc (crc : Byte) (s : State) : EndsVia R s (execRadioSetCrc crc s) := by
  refine Act.Keeps.runCommand_endsVia ?_ s
  exact hR.keeps_bind (hR.keeps_require _ _) fun _ => hR.keeps_configure (hR.keeps_setCrc _)

/-! ## Raw accesses and CAN (40_transport_and_control.md section 2, 42_can.md) -/

theorem keeps_rawDevice (dev addr : Byte) : Act.Keeps R (rawDevice dev addr) := by
  intro s
  unfold rawDevice
  split
  · exact hR.refl s
  · split <;> exact hR.refl s

theorem endsVia_busWrite (dev addr val : Byte) (s : State) :
    EndsVia R s (execBusWrite dev addr val s) := by
  refine Act.Keeps.runCommand_endsVia ?_ s
  exact hR.keeps_bind (hR.keeps_rawDevice _ _) fun _ =>
    hR.keeps_bind (hR.keeps_busWrite _ _ _) fun _ => hR.keeps_done

theorem endsVia_busRead (dev addr : Byte) (s : State) : EndsVia R s (execBusRead dev addr s) := by
  refine Act.Keeps.runCommand_endsVia ?_ s
  exact hR.keeps_bind (hR.keeps_rawDevice _ _) fun _ =>
    hR.keeps_bind (hR.keeps_busRead _ _) fun _ => hR.keeps_doneData _

theorem keeps_setCanMode (m : BitVec 3) : Act.Keeps R (setCanMode m) :=
  hR.keeps_withParams fun _ =>
    hR.keeps_bind (hR.keeps_canWrite _ _) fun _ => fun s => hR.writeCanMode s m

theorem keeps_writeCanBytes (ws : List (Byte × Byte)) : Act.Keeps R (writeCanBytes ws) := by
  induction ws with
  | nil => exact hR.keeps_pure ()
  | cons w ws ih => exact hR.keeps_bind (hR.keeps_busWrite _ _ _) fun _ => ih

theorem keeps_readCanBytes (as : List Byte) : Act.Keeps R (readCanBytes as) := by
  induction as with
  | nil => exact hR.keeps_pure []
  | cons a as ih =>
    exact hR.keeps_bind (hR.keeps_busRead _ _) fun _ => hR.keeps_bind ih fun _ => hR.keeps_pure _

theorem endsVia_canInit (xtal bitrate : Word) (mode : Byte) (s : State) :
    EndsVia R s (execCanInit xtal bitrate mode s) := by
  refine Act.Keeps.runCommand_endsVia ?_ s
  refine hR.keeps_withParams fun p =>
    hR.keeps_bind (hR.keeps_require _ _) fun _ =>
    hR.keeps_bind (hR.keeps_busCmd _ _) fun _ =>
    hR.keeps_bind (hR.keeps_delay _ _) fun _ => ?_
  cases p.timing xtal.toNat bitrate.toNat with
  | none => exact hR.keeps_bind (fun s => hR.writeCanLife s _) fun _ => hR.keeps_throw _
  | some t =>
    exact hR.keeps_bind (hR.keeps_canWrite _ _) fun _ =>
      hR.keeps_bind (hR.keeps_canWrite _ _) fun _ =>
      hR.keeps_bind (hR.keeps_canWrite _ _) fun _ =>
      hR.keeps_bind (hR.keeps_setCanMode _) fun _ =>
      hR.keeps_bind (fun s => hR.writeCanLife s _) fun _ => hR.keeps_done

theorem endsVia_canSetMode (mode : Byte) (s : State) : EndsVia R s (execCanSetMode mode s) := by
  refine Act.Keeps.runCommand_endsVia ?_ s
  exact hR.keeps_withParams fun _ =>
    hR.keeps_bind (hR.keeps_require _ _) fun _ =>
    hR.keeps_bind hR.keeps_canGate fun _ =>
    hR.keeps_bind (hR.keeps_setCanMode _) fun _ => hR.keeps_done

theorem endsVia_canSend (id : Word) (data : List Byte) (s : State) :
    EndsVia R s (execCanSend id data s) := by
  refine Act.Keeps.runCommand_endsVia ?_ s
  exact hR.keeps_withParams fun _ =>
    hR.keeps_bind (hR.keeps_require _ _) fun _ =>
    hR.keeps_bind (hR.keeps_require _ _) fun _ =>
    hR.keeps_bind hR.keeps_canGate fun _ =>
    hR.keeps_bind (hR.keeps_writeCanBytes _) fun _ =>
    hR.keeps_bind (hR.keeps_busWrite _ _ _) fun _ =>
    hR.keeps_bind (hR.keeps_writeCanBytes _) fun _ =>
    hR.keeps_bind (hR.keeps_busCmd _ _) fun _ => hR.keeps_done

theorem endsVia_canReceive (s : State) : EndsVia R s (execCanReceive s) := by
  refine Act.Keeps.runCommand_endsVia ?_ s
  refine hR.keeps_bind hR.keeps_canGate fun _ =>
    hR.keeps_withParams fun _ =>
    hR.keeps_bind (hR.keeps_canRead _) fun _ => Act.keeps_ite ?received (hR.keeps_doneWith _)
  case received =>
    exact hR.keeps_bind (hR.keeps_readCanBytes _) fun _ =>
      hR.keeps_bind (hR.keeps_busRead _ _) fun _ =>
      hR.keeps_bind (hR.keeps_readCanBytes _) fun _ =>
      hR.keeps_bind (hR.keeps_canWrite _ _) fun _ => hR.keeps_doneData _

/-! ## The codec (43_codec.md) -/

theorem keeps_appendElement (el : List Byte) : Act.Keeps R (appendElement el) := by
  intro s
  unfold appendElement
  split
  · next h => exact hR.append s el h
  · exact hR.refl s

theorem keeps_encodeCommand (k : LppKind) (ch : Byte) (qs : List Int) :
    Act.Keeps R (encodeCommand k ch qs) := by
  refine hR.keeps_withParams fun p => ?_
  cases encodeElement p.lppCodes k ch qs with
  | none => exact hR.keeps_throw _
  | some el => exact hR.keeps_bind (hR.keeps_appendElement el) fun _ => hR.keeps_done

/-- The element encoders (R255 to R258). -/
theorem endsVia_encodeCommand (k : LppKind) (ch : Byte) (qs : List Int) (s : State) :
    EndsVia R s (runCommand (encodeCommand k ch qs) s) :=
  (hR.keeps_encodeCommand k ch qs).runCommand_endsVia s

theorem endsVia_lppEncReset (s : State) : EndsVia R s (execLppEncReset s) := by
  refine Act.Keeps.runCommand_endsVia ?_ s
  exact hR.keeps_bind (fun s => hR.clearBuffer s) fun _ => hR.keeps_done

theorem endsVia_lppEncRead (s : State) : EndsVia R s (execLppEncRead s) :=
  Act.Keeps.runCommand_endsVia (fun s => hR.refl s) s

theorem endsVia_lppDecode (stream : List Byte) (s : State) :
    EndsVia R s (execLppDecode stream s) := by
  refine Act.Keeps.runCommand_endsVia ?_ s
  refine hR.keeps_withParams fun p => ?_
  cases decodeStream p stream with
  | ok rs => exact hR.keeps_doneData _
  | error e => exact hR.keeps_throw e

/-! ## What an instruction and a step can do -/

/-- An instruction is a command that ends with the bookkeeping, or (`GET_STATUS` and the elements) one
answer, or (the bus frames) one transaction. -/
theorem exec_cases (i : Instr) (s : State) :
    EndsVia R s (exec i s) ∨ (∃ o, exec i s = .next (s.answered o)) ∨
      ∃ d out, exec i s = .next (s.afterTxn d out) := by
  cases i with
  | busWrite dev addr val => exact .inl (hR.endsVia_busWrite dev addr val s)
  | busRead dev addr => exact .inl (hR.endsVia_busRead dev addr s)
  | getStatus => exact .inr (.inl ⟨_, rfl⟩)
  | radioInit freq bw sf cr preamble sync txpow crc =>
    exact .inl (hR.endsVia_radioInit freq bw sf cr preamble sync txpow crc s)
  | radioTransmit payload => exact .inl (hR.endsVia_radioTransmit payload s)
  | radioStartRx => exact .inl (hR.endsVia_radioStartRx s)
  | radioPollRx => exact .inl (hR.endsVia_radioPollRx s)
  | radioBlockingRx timeoutMs => exact .inl (hR.endsVia_radioBlockingRx timeoutMs s)
  | radioSleep => exact .inl (hR.endsVia_modeCommand _ s)
  | radioStandby => exact .inl (hR.endsVia_modeCommand _ s)
  | radioSetFrequency freq => exact .inl (hR.endsVia_configure (hR.keeps_setFrequency _) s)
  | radioSetBandwidth bw => exact .inl (hR.endsVia_configure (hR.keeps_setBandwidth _) s)
  | radioSetLnaAgc => exact .inl (hR.endsVia_configure hR.keeps_setLnaAgc s)
  | radioSetTxPower txpow => exact .inl (hR.endsVia_configure (hR.keeps_setTxPower _) s)
  | radioSetSf sf => exact .inl (hR.endsVia_configure (hR.keeps_setSpreadingFactor _) s)
  | radioSetCr cr => exact .inl (hR.endsVia_configure (hR.keeps_setCodingRate _) s)
  | radioSetPreamble preamble => exact .inl (hR.endsVia_configure (hR.keeps_setPreamble _) s)
  | radioSetSyncWord sync => exact .inl (hR.endsVia_configure (hR.keeps_setSyncWord _) s)
  | radioSetCrc crc => exact .inl (hR.endsVia_radioSetCrc crc s)
  | canInit xtal bitrate mode => exact .inl (hR.endsVia_canInit xtal bitrate mode s)
  | canSetMode mode => exact .inl (hR.endsVia_canSetMode mode s)
  | canSend id data => exact .inl (hR.endsVia_canSend id data s)
  | canReceive => exact .inl (hR.endsVia_canReceive s)
  | lppEncReset => exact .inl (hR.endsVia_lppEncReset s)
  | lppEncDigital ch v => exact .inl (hR.endsVia_encodeCommand _ _ _ s)
  | lppEncAnalog ch q => exact .inl (hR.endsVia_encodeCommand _ _ _ s)
  | lppEncAccel ch qx qy qz => exact .inl (hR.endsVia_encodeCommand _ _ _ s)
  | lppEncGps ch qlat qlon qalt => exact .inl (hR.endsVia_encodeCommand _ _ _ s)
  | lppEncRead => exact .inl (hR.endsVia_lppEncRead s)
  | lppDecode stream => exact .inl (hR.endsVia_lppDecode stream s)
  | busframeRadioWrite addr val => exact .inr (.inr ⟨_, _, rfl⟩)
  | busframeRadioRead addr => exact .inr (.inr ⟨_, _, rfl⟩)
  | busframeCanWrite addr val => exact .inr (.inr ⟨_, _, rfl⟩)
  | busframeCanRead addr => exact .inr (.inr ⟨_, _, rfl⟩)
  | busframeCanReset => exact .inr (.inr ⟨_, _, rfl⟩)
  | busframeCanRts mask => exact .inr (.inr ⟨_, _, rfl⟩)
  | lppDigitalInput ch v => exact .inr (.inl ⟨_, rfl⟩)
  | lppAnalogInput ch v => exact .inr (.inl ⟨_, rfl⟩)
  | lppAccelerometer ch x y z => exact .inr (.inl ⟨_, rfl⟩)
  | lppGps ch lat lon alt => exact .inr (.inl ⟨_, rfl⟩)

/-- A step waits, or takes the first input and then resets the core, runs a command (a malformed frame
included) to the end of its bookkeeping, answers once, or makes one transaction. -/
theorem step_cases {s t : State} (h : step s = .next t) :
    (s.inbox = [] ∧ t = s) ∨ ∃ i rest, s.inbox = i :: rest ∧
      (t = (s.setInbox rest).coreReset ∨
        (∃ u st data, R (s.setInbox rest) u ∧ t = u.ended st data) ∨
        (∃ o, t = (s.setInbox rest).answered o) ∨
        ∃ d out, t = (s.setInbox rest).afterTxn d out) := by
  unfold step at h
  split at h
  next hin =>
    cases h
    exact .inl ⟨hin, rfl⟩
  next i rest hin =>
    refine .inr ⟨i, rest, hin, ?_⟩
    split at h
    next =>
      cases h
      exact .inl rfl
    next instr _ =>
      obtain ⟨u, st, data, hu, he⟩ | ⟨o, he⟩ | ⟨d, out, he⟩ :=
        hR.exec_cases instr (s.setInbox rest) <;> rw [he] at h <;> cases h
      · exact .inr (.inl ⟨u, st, data, hu, rfl⟩)
      · exact .inr (.inr (.inl ⟨o, rfl⟩))
      · exact .inr (.inr (.inr ⟨d, out, rfl⟩))
    next e _ =>
      cases e with
      | status st =>
        cases h
        exact .inr (.inl ⟨_, st, [], hR.refl _, rfl⟩)
      | notABusFrame => cases h
      | notAnElement => cases h

end OperationClosed

end Closed

/-! ## The parameters (00_scope.md R8) -/

/-- Two states of one instance of the core: the same parameters. -/
def State.sameParams (s t : State) : Prop := t.params = s.params

theorem State.sameParams_operationClosed : OperationClosed State.sameParams where
  refl _ := rfl
  trans _ _ _ hab hbc := hbc.trans hab
  afterTxn := State.afterTxn_params
  pin s line level := by simp [State.sameParams]
  wait s w n := State.logged_params s _
  writeRadioState := State.setRadioState_params
  writeRadioLife := State.setRadioLife_params
  hazardChecked := State.hazardChecked_params
  writeCanLife := State.setCanLife_params
  writeCanMode := State.setCanMode_params
  clearBuffer s := State.setEncBuf_params s []
  append s el _ := State.setEncBuf_params s _

/-- Settles O11: no operation of a command writes a parameter, and neither the bookkeeping at its end,
the core's reset, an answer nor a bus frame does. -/
theorem parametersFixed : Obligations.ParametersFixed := by
  intro s t h
  obtain ⟨_, rfl⟩ | ⟨i, rest, _, rfl | ⟨u, st, data, hu, rfl⟩ | ⟨o, rfl⟩ | ⟨d, out, rfl⟩⟩ :=
    State.sameParams_operationClosed.step_cases h
  · rfl
  · rfl
  · calc (u.ended st data).params
      _ = u.params := State.ended_params u st data
      _ = (s.setInbox rest).params := hu
      _ = s.params := State.setInbox_params s rest
  · rfl
  · exact State.afterTxn_params _ d out

end Sys2Proof.Machine
end

section
/-! The encoding of commands (30_encoding.md): how a step takes a frame, the frame lengths of table O
(R93), the reserved opcodes (R94) and the reserved operand values (R95). -/

namespace Sys2Proof

/-! ## Frame lengths (R93)

A row of a fixed length takes its operand bytes one at a time: what it reads of a list is told by what it
does at the list's end and at the list's first byte. -/

/-- The row's operands are exactly `n` bytes. -/
def TakesBytes : Nat → (List Byte → Option Instr) → Prop
  | 0, read => (read []).isSome ∧ ∀ b bs, read (b :: bs) = none
  | n + 1, read => read [] = none ∧ ∀ b, TakesBytes n fun bs => read (b :: bs)

theorem TakesBytes.isSome_iff {n : Nat} {read : List Byte → Option Instr} (h : TakesBytes n read)
    (args : List Byte) : (read args).isSome ↔ args.length = n := by
  induction n generalizing read args with
  | zero =>
    obtain ⟨hnil, hcons⟩ := h
    cases args with
    | nil => simp [hnil]
    | cons b bs => simp [hcons]
  | succ n ih =>
    obtain ⟨hnil, hcons⟩ := h
    cases args with
    | nil => simp [hnil]
    | cons b bs => simpa using ih (hcons b) bs

/-- Every row of a fixed length, counting the opcode, takes exactly the bytes after it. -/
theorem decodeOperands_fixed {op n : Nat} (h : tableO op = some (.fixed n)) :
    ∃ k, n = k + 1 ∧ TakesBytes k (decodeOperands op) := by
  unfold tableO at h
  split at h <;> cases h <;> exact ⟨_, rfl, by simp [TakesBytes, decodeOperands]⟩

theorem tableO_plusByte {op base position : Nat} (h : tableO op = some (.plusByte base position)) :
    (op = 0x11 ∧ base = 2 ∧ position = 1) ∨ (op = 0x22 ∧ base = 6 ∧ position = 5) := by
  unfold tableO at h
  split at h <;> cases h <;> simp

theorem tableO_plusWord {op base position : Nat} (h : tableO op = some (.plusWord base position)) :
    op = 0x38 ∧ base = 3 ∧ position = 1 := by
  unfold tableO at h
  split at h <;> cases h
  simp

/-- `RADIO_TRANSMIT`: the payload is as long as `len` says. -/
theorem decodeOperands_radioTransmit_isSome (args : List Byte) :
    (decodeOperands 0x11 args).isSome ↔ args.length + 1 = 2 + (args.getD 0 0).toNat := by
  rcases args with _ | ⟨len, payload⟩
  · simp [decodeOperands]
  · simp only [decodeOperands, Option.isSome_ite, List.length_cons, List.getD_cons_zero]
    omega

/-- `CAN_SEND`: four identifier bytes, and the data are as long as `dlc` says. -/
theorem decodeOperands_canSend_isSome (args : List Byte) :
    (decodeOperands 0x22 args).isSome ↔ args.length + 1 = 6 + (args.getD 4 0).toNat := by
  rcases args with _ | ⟨a, _ | ⟨b, _ | ⟨c, _ | ⟨d, _ | ⟨dlc, data⟩⟩⟩⟩⟩
  case cons.cons.cons.cons.cons =>
    simp only [decodeOperands, Option.isSome_ite, List.length_cons, List.getD_cons_succ,
      List.getD_cons_zero]
    omega
  all_goals simp [decodeOperands]

/-- `LPP_DECODE`: the stream is as long as the two bytes of `len` say. -/
theorem decodeOperands_lppDecode_isSome (args : List Byte) :
    (decodeOperands 0x38 args).isSome ↔
      args.length + 1 = 3 + unbe [args.getD 0 0, args.getD 1 0] := by
  rcases args with _ | ⟨a, _ | ⟨b, stream⟩⟩ <;> simp [decodeOperands] <;> omega

/-- The operands of a row decode exactly where the frame has the length its row gives it (R93). -/
theorem decodeOperands_isSome_iff {op : Byte} {l : FrameLength} (h : tableO op.toNat = some l)
    (args : List Byte) :
    (decodeOperands op.toNat args).isSome ↔ (op :: args).length = l.of (op :: args) := by
  cases l with
  | fixed n =>
    obtain ⟨k, rfl, hread⟩ := decodeOperands_fixed h
    simpa [FrameLength.of] using hread.isSome_iff args
  | plusByte base position =>
    obtain ⟨hop, rfl, rfl⟩ | ⟨hop, rfl, rfl⟩ := tableO_plusByte h <;> rw [hop]
    · exact decodeOperands_radioTransmit_isSome args
    · exact decodeOperands_canSend_isSome args
  | plusWord base position =>
    obtain ⟨hop, rfl, rfl⟩ := tableO_plusWord h
    rw [hop]
    exact decodeOperands_lppDecode_isSome args

/-! ## Command frames (R93, R94, R99) -/

theorem decodeCommand_nil : decodeCommand [] = .error (.status .frameError) := rfl

theorem decodeCommand_reserved {op : Byte} (h : tableO op.toNat = none) (args : List Byte) :
    decodeCommand (op :: args) = .error (.status .illegalCommand) := by
  simp [decodeCommand, h]

theorem decodeCommand_wrongLength {op : Byte} {args : List Byte} {l : FrameLength}
    (h : tableO op.toNat = some l) (hlen : (op :: args).length ≠ l.of (op :: args)) :
    decodeCommand (op :: args) = .error (.status .frameError) := by
  have hnone : decodeOperands op.toNat args = none :=
    Option.not_isSome_iff_eq_none.1 fun hs => hlen ((decodeOperands_isSome_iff h args).1 hs)
  simp [decodeCommand, h, hnone]

theorem decodeCommand_rightLength {op : Byte} {args : List Byte} {l : FrameLength}
    (h : tableO op.toNat = some l) (hlen : (op :: args).length = l.of (op :: args)) :
    ∃ i, decodeCommand (op :: args) = .ok i := by
  obtain ⟨i, hi⟩ := Option.isSome_iff_exists.1 ((decodeOperands_isSome_iff h args).2 hlen)
  exact ⟨i, by simp [decodeCommand, h, hi]⟩

/-- The opcodes R94 reserves have no row in table O. -/
theorem tableO_reserved {op : Nat} (h : op = 0x00 ∨ (0x04 ≤ op ∧ op ≤ 0x0F) ∨
    (0x24 ≤ op ∧ op ≤ 0x2F) ∨ op = 0x36 ∨ op = 0x37 ∨ 0x39 ≤ op) : tableO op = none := by
  unfold tableO
  split <;> try omega
  rfl

/-! ## Operands (R91, R95) -/

theorem deviceOf_reserved {dev : Byte} (h0 : dev ≠ 0) (h1 : dev ≠ 1) : deviceOf dev = none := by
  rw [deviceOf, if_neg h0, if_neg h1]

theorem flagLegal_reserved {b : Byte} (h : b &&& 0xFE ≠ 0) : flagLegal b = false := by
  simpa [flagLegal] using h

theorem modeLegal_reserved {l : CanLayout} {b : Byte}
    (h : b &&& 0xF8 ≠ 0 ∨ b.setWidth 3 ∉ l.modeCodes) : modeLegal l b = false := by
  rw [modeLegal, Bool.and_eq_false_iff]
  exact h.imp (fun hbits => by simpa using hbits) fun hcode => by simpa using hcode

theorem canIdLegal_reserved {m : CanIdMode} {id : Word}
    (h : (m = .std11 ∧ 2 ^ 11 ≤ id.toNat) ∨ (m = .ext29 ∧ 2 ^ 29 ≤ id.toNat)) :
    canIdLegal m id = false := by
  obtain ⟨rfl, h⟩ | ⟨rfl, h⟩ := h <;> exact decide_eq_false (Nat.not_lt.2 h)

end Sys2Proof

namespace Sys2Proof.Machine

open Sys2Proof

/-! ## A step that takes a command frame (00_scope.md R5, 30_encoding.md R99) -/

theorem step_command_ok {s : State} {f : List Byte} {rest : List Input} {i : Instr}
    (hin : s.inbox = .command f :: rest) (h : decodeCommand f = .ok i) :
    step s = exec i (s.setInbox rest) := by
  simp [step, hin, State.decode, decodeInput, h]

theorem step_command_error {s : State} {f : List Byte} {rest : List Input} {st : Status}
    (hin : s.inbox = .command f :: rest) (h : decodeCommand f = .error (.status st)) :
    step s = .next ((s.setInbox rest).ended st []) := by
  simp [step, hin, State.decode, decodeInput, h, refuseInput]

/-- Settles O4: no row of table O has a reserved opcode, so the frame decodes to ILLEGAL_COMMAND, and the
step is the bookkeeping of that status. -/
theorem reservedOpcodesRefused : Obligations.ReservedOpcodesRefused := by
  intro s op args rest hop hin
  have hrow : tableO op.toNat = none := tableO_reserved (by bv_omega)
  exact step_command_error hin (decodeCommand_reserved hrow args)

/-- Settles O5: a row's operands decode exactly where the frame has the row's length, and the step is the
bookkeeping of FRAME_ERROR or the decoded command. -/
theorem frameLengthRule : Obligations.FrameLengthRule := by
  intro s f rest hin
  refine ⟨?empty, ?wrong, ?right⟩
  case empty =>
    rintro rfl
    exact step_command_error hin decodeCommand_nil
  case wrong =>
    rintro op args l rfl hrow hlen
    exact step_command_error hin (decodeCommand_wrongLength hrow hlen)
  case right =>
    rintro op args l rfl hrow hlen
    obtain ⟨i, hi⟩ := decodeCommand_rightLength hrow hlen
    exact ⟨i, hi, step_command_ok hin hi⟩

/-! ## Commands that a check ends (60_exceptions.md R302, R304) -/

theorem runCommand_of_error {body : Act (Status × List Byte)} {s s' : State} {st : Status}
    (h : body s = .error st s') : runCommand body s = .next (s'.ended st []) := by
  rw [runCommand_next, State.afterCommand_error h]

/-- A command whose first check fails ends with that check's status, whatever it would do next. -/
theorem runCommand_require_error {c : Bool} (h : c = false) (e : Status)
    (k : Unit → Act (Status × List Byte)) (s : State) :
    runCommand (require c e >>= k) s = .next (s.ended e []) :=
  runCommand_of_error (by simp [require_error h])

/-- The same for a check that speaks of the parameters. -/
theorem runCommand_params_require_error {c : Params → Bool} {s : State} (h : c s.params = false)
    (e : Status) (k : Params → Unit → Act (Status × List Byte)) :
    runCommand (params >>= fun p => require (c p) e >>= k p) s = .next (s.ended e []) :=
  runCommand_of_error (by simp [require_error h])

/-- A raw access to a reserved device ends before its transaction (R137, R138). -/
theorem runCommand_rawDevice_reserved {dev : Byte} (h : deviceOf dev = none) (addr : Byte)
    (k : Device → Act (Status × List Byte)) (s : State) :
    runCommand (rawDevice dev addr >>= k) s = .next (s.ended .illegalOperand []) :=
  runCommand_of_error (by simp [rawDevice, h])

/-- Settles O20: the operand check is the first of each of these commands, so the command ends there in the
state it began in. -/
theorem reservedOperandsRefused : Obligations.ReservedOperandsRefused := by
  intro s
  refine ⟨?device, ?flag, ?mode, ?identifier⟩
  case device =>
    intro dev addr val h0 h1
    have hdev := deviceOf_reserved h0 h1
    exact ⟨runCommand_rawDevice_reserved hdev addr _ s, runCommand_rawDevice_reserved hdev addr _ s⟩
  case flag =>
    intro crc h
    have hcrc := flagLegal_reserved h
    exact ⟨fun _ _ _ _ _ _ _ => runCommand_require_error hcrc _ _ s,
      runCommand_require_error hcrc _ _ s⟩
  case mode =>
    intro mode h
    have hmode : modeLegal s.params.can.layout mode = false := modeLegal_reserved h
    exact ⟨fun _ _ => runCommand_params_require_error hmode _ _,
      runCommand_params_require_error hmode _ _⟩
  case identifier =>
    intro id data h
    exact runCommand_params_require_error (canIdLegal_reserved h) _ _

end Sys2Proof.Machine
end

section
/-! The transport's commands (40_transport_and_control.md section 2): the bytes in which a word goes to the
host, and `GET_STATUS` (R139). -/

namespace Sys2Proof

/-! ## Words as bytes (00_scope.md R11) -/

/-- Byte `n` of a word, counted from the low end, is the word's field at bit `8 * n`. -/
theorem ofNat_toNat_div_eq_extractLsb' {w : Nat} (x : BitVec w) (n : Nat) :
    BitVec.ofNat 8 (x.toNat / 256 ^ n) = x.extractLsb' (8 * n) 8 := by
  rw [BitVec.extractLsb', Nat.shiftRight_eq_div_pow, pow256]

/-- The big-endian bytes of a word are its byte fields, the highest first. -/
theorem beNat_toNat_succ {w : Nat} (x : BitVec w) (n : Nat) :
    beNat (n + 1) x.toNat = x.extractLsb' (8 * n) 8 :: beNat n x.toNat := by
  rw [beNat, ofNat_toNat_div_eq_extractLsb']

end Sys2Proof

namespace Sys2Proof.Machine

open Sys2Proof

/-! ## GET_STATUS (40_transport_and_control.md R139) -/

/-- `GET_STATUS` is one answer, the bytes of STATUS and of the fault register, with no bookkeeping. -/
theorem exec_getStatus (s : State) :
    exec .getStatus s = .next (s.answered (.result 0x00
      [s.status.extractLsb' 24 8, s.status.extractLsb' 16 8, s.status.extractLsb' 8 8,
        s.status.extractLsb' 0 8, s.faults.extractLsb' 8 8, s.faults.extractLsb' 0 8])) := by
  have hstatus := beNat_toNat_succ s.status
  have hfaults := beNat_toNat_succ s.faults
  calc exec .getStatus s
    _ = .next (s.answered (.result 0x00 (beNat 4 s.status.toNat ++ beNat 2 s.faults.toNat))) := rfl
    _ = _ := by
      rw [hstatus 3, hstatus 2, hstatus 1, hstatus 0, hfaults 1, hfaults 0]
      rfl

/-- STATUS right after reset (10_state.md R23, 70_reset_and_hazards.md R330) where no capability is present
and identifiers have eleven bits: CAN_MODE is "none written" and every other field is 0. -/
theorem status_reset_of_std11 {p : Params} (hcaps : p.caps = ⟨false, false, false⟩)
    (hid : p.canIdMode = .std11) : { State.reset with params := p }.status = 0x000001C0 := by
  simp only [State.status, hcaps, hid]
  rfl

/-- Settles O26: the answer is `exec_getStatus`, and the example at reset is that answer at the STATUS of
`status_reset_of_std11`, with no fault recorded and nothing answered before. -/
theorem getStatusRule : Obligations.GetStatusRule := by
  refine ⟨rfl, exec_getStatus, ?_⟩
  intro s p hcaps hid hs
  have hstatus : s.status = 0x000001C0 := hs ▸ status_reset_of_std11 hcaps hid
  have hfaults : s.faults = 0 := by rw [hs]; rfl
  have houtbox : s.outbox = [] := by rw [hs]; rfl
  rw [exec_getStatus, State.answered, hstatus, hfaults, houtbox]
  rfl

end Sys2Proof.Machine
end

section
/-! The radio's checks (41_radio.md section 1): the gate before every radio command (R150), and the hazard
check of a configuration command, which then goes on (R151). -/

namespace Sys2Proof.Machine

open Sys2Proof

/-! ## A command whose first step is known (60_exceptions.md R302, R304) -/

theorem runCommand_bind_ok {α : Type} {x : Act α} {s s' : State} {a : α} (h : x s = .ok a s')
    (k : α → Act (Status × List Byte)) : runCommand (x >>= k) s = runCommand (k a) s' := by
  simp [runCommand, State.afterCommand, h]

theorem runCommand_bind_error {α : Type} {x : Act α} {s s' : State} {st : Status}
    (h : x s = .error st s') (k : α → Act (Status × List Byte)) :
    runCommand (x >>= k) s = .next (s'.ended st []) :=
  runCommand_of_error (by simp [h])

/-! ## The radio gate (R150) -/

/-- The two values of a legal flag, from the check that `radioGated` and `radioSetting` make of it. -/
theorem eq_zero_or_one_of_beq {b : Byte} (h : (b == 0 || b == 1) = true) : b = 0 ∨ b = 1 := by
  simpa using h

/-- `RADIO_SET_CRC` with a legal flag is a configuration command like the others. -/
theorem exec_radioSetCrc {crc : Byte} (h : crc = 0 ∨ crc = 1) (s : State) :
    exec (.radioSetCrc crc) s = runCommand (configure (setCrc (flagValue crc))) s :=
  runCommand_bind_ok (require_ok (flagLegal_of h) _ s) _

/-- Once its operand checks have passed, a radio command other than `RADIO_INIT` is the gate and then
whatever it does. -/
theorem exec_radioGated {i : Instr} {s : State} (h : i.radioGated s.params = true) :
    ∃ k, exec i s = runCommand (radioGate >>= k) s := by
  cases i with
  | radioTransmit payload =>
    exact ⟨_, (runCommand_bind_ok (params_apply s) _).trans
      (runCommand_bind_ok (require_ok h _ s) _)⟩
  | radioSetCrc crc =>
    exact ⟨_, exec_radioSetCrc (eq_zero_or_one_of_beq h) s⟩
  | radioStartRx | radioPollRx | radioBlockingRx _ | radioSleep | radioStandby
  | radioSetFrequency _ | radioSetBandwidth _ | radioSetLnaAgc | radioSetTxPower _ | radioSetSf _
  | radioSetCr _ | radioSetPreamble _ | radioSetSyncWord _ => exact ⟨_, rfl⟩
  | _ => cases h

/-- What the gate refuses, it refuses in the state the command began in. -/
theorem exec_radioGated_of_gate_error {i : Instr} {s : State} {st : Status}
    (h : i.radioGated s.params = true) (hgate : radioGate s = .error st s) :
    exec i s = .next (s.ended st []) := by
  obtain ⟨k, hk⟩ := exec_radioGated h
  rw [hk, runCommand_bind_error hgate]

/-! ## Sequences of transactions (40_transport_and_control.md R131, R136) -/

@[simp] theorem State.transacted_radioState (ts : List (Device × List Byte)) (s : State) :
    (s.transacted ts).radioState = s.radioState := by
  induction ts generalizing s with
  | nil => rfl
  | cons t ts ih => rw [State.transacted_cons, ih, State.afterTxn_radioState]

@[simp] theorem State.transacted_rwHazard (ts : List (Device × List Byte)) (s : State) :
    (s.transacted ts).rwHazard = s.rwHazard := by
  induction ts generalizing s with
  | nil => rfl
  | cons t ts ih => rw [State.transacted_cons, ih, State.afterTxn_rwHazard]

/-- A sequence that makes at least one transaction and does nothing else: it goes on after the last one,
or ends at one that fails. -/
def Act.Transacts {α : Type} (x : Act α) : Prop :=
  ∀ s, ∃ ts, ts ≠ [] ∧
    ((∃ a, x s = .ok a (s.transacted ts)) ∨ x s = .error .busIoError (s.transacted ts))

theorem transacts_txn (d : Device) (out : List Byte) : Act.Transacts (txn d out) := by
  intro s
  refine ⟨[(d, out)], by simp, ?_⟩
  obtain ⟨ins, _, h⟩ | ⟨_, h⟩ := txn_cases d out s
  · exact .inl ⟨ins, h⟩
  · exact .inr h

theorem Act.Transacts.bind {α β : Type} {x : Act α} {f : α → Act β} (hx : Act.Transacts x)
    (hf : ∀ a, Act.Transacts (f a)) : Act.Transacts (x >>= f) := by
  intro s
  obtain ⟨ts, hts, ⟨a, ha⟩ | he⟩ := hx s
  · obtain ⟨us, _, h⟩ := hf a (s.transacted ts)
    exact ⟨ts ++ us, by simp [hts], by simpa [ha] using h⟩
  · exact ⟨ts, hts, .inr (by simp [he])⟩

/-- A value made from what the transactions shift in. -/
theorem Act.Transacts.bind_pure {α β : Type} {x : Act α} (hx : Act.Transacts x) (g : α → β) :
    Act.Transacts (x >>= fun a => pure (g a)) := by
  intro s
  obtain ⟨ts, hts, ⟨a, ha⟩ | he⟩ := hx s
  · exact ⟨ts, hts, .inl ⟨g a, by simp [ha]⟩⟩
  · exact ⟨ts, hts, .inr (by simp [he])⟩

theorem transacts_withParams {α : Type} {f : Params → Act α} (hf : ∀ p, Act.Transacts (f p)) :
    Act.Transacts (params >>= f) := fun s => hf s.params s

theorem transacts_radioWrite (reg : RadioMap → Byte) (v : Byte) :
    Act.Transacts (radioWrite reg v) :=
  transacts_withParams fun _ => transacts_withParams fun _ => (transacts_txn _ _).bind_pure _

theorem transacts_radioRead (reg : RadioMap → Byte) : Act.Transacts (radioRead reg) :=
  transacts_withParams fun _ => transacts_withParams fun _ => (transacts_txn _ _).bind_pure _

/-- A radio register written with a value made from what a read of the radio returns. -/
theorem transacts_radioModify (reg reg' : RadioMap → Byte) (f : Byte → Byte) :
    Act.Transacts (do let r ← radioRead reg; radioWrite reg' (f r)) :=
  (transacts_radioRead _).bind fun _ => transacts_radioWrite _ _

theorem transacts_setFrequency (f : Nat) : Act.Transacts (setFrequency f) :=
  transacts_withParams fun _ =>
    (transacts_radioWrite _ _).bind fun _ =>
    (transacts_radioWrite _ _).bind fun _ => transacts_radioWrite _ _

theorem transacts_setBandwidth (bw : Nat) : Act.Transacts (setBandwidth bw) :=
  transacts_withParams fun _ => transacts_radioModify _ _ _

theorem transacts_setLnaAgc : Act.Transacts setLnaAgc :=
  transacts_withParams fun _ =>
    (transacts_radioRead _).bind fun _ =>
    (transacts_radioWrite _ _).bind fun _ => transacts_radioWrite _ _

theorem transacts_setTxPower (dBm : Int) : Act.Transacts (setTxPower dBm) :=
  transacts_withParams fun _ => transacts_radioWrite _ _

theorem transacts_setSpreadingFactor (sf : Int) : Act.Transacts (setSpreadingFactor sf) :=
  transacts_withParams fun _ =>
    (transacts_radioWrite _ _).bind fun _ =>
    (transacts_radioWrite _ _).bind fun _ => transacts_radioModify _ _ _

theorem transacts_setCodingRate (c : Int) : Act.Transacts (setCodingRate c) :=
  transacts_withParams fun _ => transacts_radioModify _ _ _

theorem transacts_setPreamble (n : Nat) : Act.Transacts (setPreamble n) :=
  (transacts_radioWrite _ _).bind fun _ => transacts_radioWrite _ _

theorem transacts_setSyncWord (w : Byte) : Act.Transacts (setSyncWord w) := transacts_radioWrite _ _

theorem transacts_setCrc (e : Bool) : Act.Transacts (setCrc e) :=
  transacts_withParams fun _ => transacts_radioModify _ _ _

/-! ## How many transactions have been made -/

/-- No transaction is taken back. -/
def State.drawsLe (s t : State) : Prop := s.draws ≤ t.draws

/-- At least one transaction more. -/
def State.drawsLt (s t : State) : Prop := s.draws < t.draws

theorem State.drawsLe_operationClosed : OperationClosed State.drawsLe where
  refl s := Nat.le_refl s.draws
  trans _ _ _ := Nat.le_trans
  afterTxn s d out := by simp [State.drawsLe]
  pin s line level := by simp [State.drawsLe]
  wait s w n := by simp [State.drawsLe]
  writeRadioState s m := by simp [State.drawsLe]
  writeRadioLife s l := by simp [State.drawsLe]
  hazardChecked s := by simp [State.drawsLe]
  writeCanLife s l := by simp [State.drawsLe]
  writeCanMode s m := by simp [State.drawsLe]
  clearBuffer s := by simp [State.drawsLe]
  append s el _ := by simp [State.drawsLe]

theorem Act.Transacts.keeps_drawsLt {α : Type} {x : Act α} (h : Act.Transacts x) :
    Act.Keeps State.drawsLt x := by
  intro s
  obtain ⟨ts, hts, ⟨a, ha⟩ | he⟩ := h s
  · simpa [ha, finalState, State.drawsLt, List.length_pos_iff] using hts
  · simpa [he, finalState, State.drawsLt, List.length_pos_iff] using hts

/-- A sequence that begins with a transaction makes one, however it goes on. -/
theorem Act.Keeps.drawsLt_bind {α β : Type} {x : Act α} {f : α → Act β}
    (hx : Act.Keeps State.drawsLt x) (hf : ∀ a, Act.Keeps State.drawsLe (f a)) :
    Act.Keeps State.drawsLt (x >>= f) := by
  intro s
  have h := hx s
  rw [act_bind]
  cases hxs : x s with
  | ok a s' =>
    rw [hxs] at h
    exact Nat.lt_of_lt_of_le h (hf a s')
  | error e s' =>
    rw [hxs] at h
    exact h

theorem Act.Keeps.draws_lt_of_runCommand {body : Act (Status × List Byte)}
    (h : Act.Keeps State.drawsLt body) (s : State) :
    ∃ t, runCommand body s = .next t ∧ s.draws < t.draws := by
  obtain ⟨u, st, data, hu, he⟩ := h.runCommand_endsVia s
  exact ⟨_, he, by simpa [State.drawsLt] using hu⟩

/-! ## RADIO_INIT's first check (R150, R170) -/

theorem notFailed_ok {s : State} (h : s.radioLife ≠ .failed) : notFailed s = .ok () s := by
  simp [notFailed, h]

theorem notFailed_error {s : State} (h : s.radioLife = .failed) :
    notFailed s = .error .deviceNotFound s := by simp [notFailed, h]

/-- The reset pulse cannot fail, and is no transaction. -/
theorem pulseReset_ok (s : State) : ∃ s', pulseReset s = .ok () s' ∧ s'.draws = s.draws := by
  by_cases h : s.params.caps.hasReset = true <;> simp [pulseReset, h]

theorem keeps_checkIdentity_drawsLt : Act.Keeps State.drawsLt checkIdentity := by
  intro s
  have hR := State.drawsLe_operationClosed
  refine (transacts_radioRead _).keeps_drawsLt.drawsLt_bind (fun _ => ?_) s
  exact Act.keeps_ite (hR.keeps_pure _)
    (hR.keeps_bind (fun s => hR.writeRadioLife s _) fun _ => hR.keeps_throw _)

theorem exec_radioInit_failed {s : State} {crc : Byte} (hcrc : crc = 0 ∨ crc = 1)
    (h : s.radioLife = .failed) (freq bw sf cr preamble : Word) (sync : Byte) (txpow : Word) :
    exec (.radioInit freq bw sf cr preamble sync txpow crc) s =
      .next (s.ended .deviceNotFound []) :=
  (runCommand_bind_ok (require_ok (flagLegal_of hcrc) _ s) _).trans
    (runCommand_bind_error (notFailed_error h) _)

/-- On a radio that has not failed, `RADIO_INIT` comes to its identity check, a transaction. -/
theorem exec_radioInit_draws_lt {s : State} {crc : Byte} (hcrc : crc = 0 ∨ crc = 1)
    (h : s.radioLife ≠ .failed) (freq bw sf cr preamble : Word) (sync : Byte) (txpow : Word) :
    ∃ t, exec (.radioInit freq bw sf cr preamble sync txpow crc) s = .next t ∧
      s.draws < t.draws := by
  have hR := State.drawsLe_operationClosed
  obtain ⟨s', hpulse, hdraws⟩ := pulseReset_ok s
  rw [exec, execRadioInit, runCommand_bind_ok (require_ok (flagLegal_of hcrc) _ s),
    runCommand_bind_ok (notFailed_ok h), runCommand_bind_ok hpulse, ← hdraws]
  refine (keeps_checkIdentity_drawsLt.drawsLt_bind fun _ => ?_).draws_lt_of_runCommand s'
  exact hR.keeps_bind (hR.keeps_setMode _) fun _ =>
    hR.keeps_bind (hR.keeps_setFrequency _) fun _ =>
    hR.keeps_bind (hR.keeps_setBandwidth _) fun _ =>
    hR.keeps_bind hR.keeps_setLnaAgc fun _ =>
    hR.keeps_bind (hR.keeps_setTxPower _) fun _ =>
    hR.keeps_bind (hR.keeps_setSpreadingFactor _) fun _ =>
    hR.keeps_bind (hR.keeps_setCodingRate _) fun _ =>
    hR.keeps_bind (hR.keeps_setPreamble _) fun _ =>
    hR.keeps_bind (hR.keeps_setSyncWord _) fun _ =>
    hR.keeps_bind (hR.keeps_setCrc _) fun _ =>
    hR.keeps_bind (hR.keeps_setMode _) fun _ =>
    hR.keeps_bind (fun s => hR.writeRadioLife s _) fun _ => hR.keeps_done

/-- Settles O18: every gated command is the gate and then whatever it does, so it ends with what the gate
raises; RADIO_INIT ends at its first check, or passes it and comes to its identity check. -/
theorem radioGateRule : Obligations.RadioGateRule := by
  refine ⟨?gated, ?init⟩
  case gated =>
    intro s i hi
    exact ⟨fun h => exec_radioGated_of_gate_error hi (radioGate_failed h),
      fun h => exec_radioGated_of_gate_error hi (radioGate_uninit h)⟩
  case init =>
    intro s freq bw sf cr preamble sync txpow crc hcrc
    exact ⟨fun h => exec_radioInit_failed hcrc h freq bw sf cr preamble sync txpow,
      fun h => exec_radioInit_draws_lt hcrc h freq bw sf cr preamble sync txpow⟩

/-! ## The hazard check of a configuration command (R151, R177 to R185) -/

/-- A configuration command with a legal operand is one sequence of transactions with the gate and the
hazard check before it. -/
theorem exec_radioSetting {i : Instr} (h : i.radioSetting = true) (s : State) :
    ∃ sequence, Act.Transacts sequence ∧ exec i s = runCommand (configure sequence) s := by
  cases i with
  | radioSetFrequency freq => exact ⟨_, transacts_setFrequency _, rfl⟩
  | radioSetBandwidth bw => exact ⟨_, transacts_setBandwidth _, rfl⟩
  | radioSetLnaAgc => exact ⟨_, transacts_setLnaAgc, rfl⟩
  | radioSetTxPower txpow => exact ⟨_, transacts_setTxPower _, rfl⟩
  | radioSetSf sf => exact ⟨_, transacts_setSpreadingFactor _, rfl⟩
  | radioSetCr cr => exact ⟨_, transacts_setCodingRate _, rfl⟩
  | radioSetPreamble preamble => exact ⟨_, transacts_setPreamble _, rfl⟩
  | radioSetSyncWord sync => exact ⟨_, transacts_setSyncWord _, rfl⟩
  | radioSetCrc crc =>
    exact ⟨_, transacts_setCrc _, exec_radioSetCrc (eq_zero_or_one_of_beq h) s⟩
  | _ => cases h

/-- On a Ready radio a configuration command is the hazard check, its transactions and the bookkeeping. -/
theorem runCommand_configure_ready {sequence : Act Unit} (hseq : Act.Transacts sequence) {s : State}
    (h : s.radioLife = .ready) : ∃ ts st, ts ≠ [] ∧ (st = .ok ∨ st = .busIoError) ∧
      runCommand (configure sequence) s =
        .next ((s.hazardChecked.transacted ts).ended st []) := by
  have hrun : runCommand (configure sequence) s =
      runCommand (sequence >>= fun _ => done) s.hazardChecked :=
    (runCommand_bind_ok (radioGate_ready h) _).trans (runCommand_bind_ok (hazardCheck_apply s) _)
  obtain ⟨ts, hts, ⟨a, ha⟩ | he⟩ := hseq s.hazardChecked
  · exact ⟨ts, .ok, hts, .inl rfl, by rw [hrun, runCommand_bind_ok ha]; rfl⟩
  · exact ⟨ts, .busIoError, hts, .inr rfl, by rw [hrun, runCommand_bind_error he]⟩

/-- Settles O23: what `runCommand_configure_ready` leaves, field by field: the transactions and the
bookkeeping write neither the mode nor the hazard flag. -/
theorem hazardRule : Obligations.HazardRule := by
  intro s t i hi hlife hexec
  obtain ⟨sequence, hseq, hrun⟩ := exec_radioSetting hi s
  obtain ⟨ts, st, hts, hst, hend⟩ := runCommand_configure_ready hseq hlife
  obtain rfl : (s.hazardChecked.transacted ts).ended st [] = t := by
    simpa [hrun, hend] using hexec
  refine ⟨?hazard, ?mode, ?transaction, ?status⟩
  case hazard => simp
  case mode => simp
  case transaction => simpa [List.length_pos_iff] using hts
  case status => exact hst.imp (fun h => by rw [h]; rfl) fun h => by rw [h]; rfl

end Sys2Proof.Machine
end

section
/-! The CAN controller's gate (42_can.md R220): the operand checks before it, and its refusal. -/

namespace Sys2Proof

/-! ## A legal mode operand (R221) -/

/-- A code of three bits leaves bits 7:3 of its byte clear. -/
theorem setWidth_and_upper_eq_zero (code : BitVec 3) : code.setWidth 8 &&& (0xF8 : Byte) = 0 := by
  revert code
  decide

/-- The byte of a mode code of the layout passes `ValidMode`. -/
theorem modeLegal_setWidth {l : CanLayout} {code : BitVec 3} (h : code ∈ l.modeCodes) :
    modeLegal l (code.setWidth 8) = true := by
  have hcode : (code.setWidth 8).setWidth 3 = code := by simp
  rw [modeLegal, hcode, setWidth_and_upper_eq_zero]
  simpa using h

end Sys2Proof

namespace Sys2Proof.Machine

open Sys2Proof

/-! ## The CAN gate (R220) -/

/-- A check of the parameters that passes leaves the rest of the command, in the state it began in. -/
theorem runCommand_params_require_ok {c : Params → Bool} {s : State} (h : c s.params = true)
    (e : Status) (k : Params → Unit → Act (Status × List Byte)) :
    runCommand (params >>= fun p => require (c p) e >>= k p) s = runCommand (k s.params ()) s :=
  (runCommand_bind_ok (params_apply s) _).trans (runCommand_bind_ok (require_ok h e s) _)

/-- What the gate refuses, it refuses in the state the command reaches it in. -/
theorem runCommand_canGate_error {s : State} (h : s.canLife ≠ .ready)
    (k : Unit → Act (Status × List Byte)) :
    runCommand (canGate >>= k) s = .next (s.ended .notInitialized []) :=
  runCommand_bind_error (canGate_error h) k

/-- Settles O19: the operand checks of each command pass and change nothing, and the gate comes next. -/
theorem canGateRule : Obligations.CanGateRule := by
  intro s hlife
  refine ⟨?setMode, ?send, ?receive⟩
  case setMode =>
    intro code hcode
    exact (runCommand_params_require_ok (modeLegal_setWidth hcode) _ _).trans
      (runCommand_canGate_error hlife _)
  case send =>
    intro id data hid hlen
    exact (runCommand_params_require_ok hid _ _).trans <|
      (runCommand_bind_ok (require_ok (decide_eq_true hlen) _ s) _).trans
        (runCommand_canGate_error hlife _)
  case receive => exact runCommand_canGate_error hlife _

end Sys2Proof.Machine
end

section
/-! The codec's commands (43_codec.md): the bytes of a scaled integer, what an element encoder can do to the
encoder buffer (R252, R253), the decoder's walk at each of its branches (R260), and the seven commands (R254
to R261). -/

namespace Sys2Proof

/-! ## Words as bytes (00_scope.md R11, 30_encoding.md R97) -/

theorem beNat_two_toNat (w : Word) : beNat 2 w.toNat = [w.extractLsb' 8 8, w.extractLsb' 0 8] := by
  rw [beNat_toNat_succ w 1, beNat_toNat_succ w 0, beNat]

theorem beNat_three_toNat (w : Word) :
    beNat 3 w.toNat = [w.extractLsb' 16 8, w.extractLsb' 8 8, w.extractLsb' 0 8] := by
  rw [beNat_toNat_succ w 2, beNat_two_toNat]

theorem wordBytes_eq_extractLsb' (w : Word) : wordBytes w =
    [w.extractLsb' 24 8, w.extractLsb' 16 8, w.extractLsb' 8 8, w.extractLsb' 0 8] := by
  rw [wordBytes, beNat_toNat_succ w 3, beNat_three_toNat]

@[simp] theorem wordOf_extractLsb' (w : Word) :
    wordOf (w.extractLsb' 24 8) (w.extractLsb' 16 8) (w.extractLsb' 8 8) (w.extractLsb' 0 8) = w := by
  rw [wordOf, ← wordBytes_eq_extractLsb', ofNat_unbe_wordBytes]

/-- The low bytes of a word are those of the signed integer it stands for. -/
theorem beInt_toInt {w n : Nat} (x : BitVec w) (h : 8 * n ≤ w) : beInt n x.toInt = beNat n x.toNat := by
  have hdvd : ((256 ^ n : Nat) : Int) ∣ ((2 ^ w : Nat) : Int) := by
    rw [pow256]
    exact Int.natCast_dvd_natCast.2 (pow_dvd_pow 2 h)
  have hmod : x.toInt % ((256 ^ n : Nat) : Int) = ((x.toNat % 256 ^ n : Nat) : Int) := by
    rw [BitVec.toInt_eq_toNat_bmod, ← Int.emod_emod_of_dvd _ hdvd, Int.bmod_emod,
      Int.emod_emod_of_dvd _ hdvd, Int.natCast_emod]
  rw [beInt, hmod, Int.toNat_natCast, beNat_mod n _ n le_rfl]

/-- A field of one byte, of the integer that byte stands for. -/
theorem beInt_one_toNat (v : Byte) : beInt 1 v.toNat = [v] := by
  rw [beInt, ← Int.natCast_emod, Int.toNat_natCast, beNat_mod 1 _ 1 le_rfl]
  simp [beNat]

/-! ## Fields and elements (43_codec.md R252) -/

/-- The range of a signed field. -/
theorem fieldFits_signed_eq_false {w : Nat} {q : Int} :
    fieldFits true w q = false ↔ q < -2 ^ (8 * w - 1) ∨ 2 ^ (8 * w - 1) - 1 < q := by
  simp only [fieldFits, if_true, decide_eq_false_iff_not]
  omega

/-- A byte's value fits an unsigned field of one byte. -/
theorem fieldFits_byte (v : Byte) : fieldFits false 1 v.toNat = true := by
  have hv := v.isLt
  simp only [fieldFits, Bool.false_eq_true, if_false, decide_eq_true_eq]
  omega

theorem mapM_encodeField_of_fits {signed : Bool} {w : Nat} {qs : List Int}
    (h : ∀ q ∈ qs, fieldFits signed w q = true) :
    qs.mapM (encodeField signed w) = some (qs.map (beInt w)) := by
  induction qs with
  | nil => rfl
  | cons q qs ih =>
    obtain ⟨hq, hqs⟩ := List.forall_mem_cons.1 h
    simp [encodeField_some hq, ih hqs]

theorem mapM_encodeField_of_not_fits {signed : Bool} {w : Nat} {qs : List Int}
    (h : ∃ q ∈ qs, fieldFits signed w q = false) : qs.mapM (encodeField signed w) = none := by
  induction qs with
  | nil => simp at h
  | cons q qs ih =>
    obtain hq | hqs := (List.exists_mem_cons_iff _ _ _).1 h
    · simp [encodeField_none hq]
    · simp [ih hqs]

/-- An element whose fields all fit: its channel, its type code and the fields' bytes. -/
theorem encodeElement_of_fits {codes : LppCodes} {k : LppKind} {ch : Byte} {qs : List Int}
    (h : ∀ q ∈ qs, fieldFits k.signed k.width q = true) :
    encodeElement codes k ch qs = some (ch :: codes.codeOf k :: qs.flatMap (beInt k.width)) := by
  rw [encodeElement, mapM_encodeField_of_fits h]
  rfl

/-- One field that does not fit leaves no element. -/
theorem encodeElement_of_not_fits {codes : LppCodes} {k : LppKind} {ch : Byte} {qs : List Int}
    (h : ∃ q ∈ qs, fieldFits k.signed k.width q = false) : encodeElement codes k ch qs = none := by
  rw [encodeElement, mapM_encodeField_of_not_fits h]
  rfl

/-! ## The decoder's walk (43_codec.md R260) -/

/-- Field `j` of an element starts at byte `j * w` of its value. -/
theorem decodeFields_eq_map (signed : Bool) (w n : Nat) (bs : List Byte) :
    decodeFields signed w n bs =
      (List.range n).map fun j => decodeField signed ((bs.drop (j * w)).take w) := by
  induction n generalizing bs with
  | zero => rfl
  | succ n ih =>
    rw [decodeFields, ih, List.range_succ_eq_map, List.map_cons, List.map_map]
    simp [Function.comp_def, Nat.succ_mul, Nat.add_comm]

/-- A field is sign-extended from its own width, where its type is signed. -/
theorem decodeField_eq_ite (signed : Bool) (bs : List Byte) :
    decodeField signed bs =
      if signed = true ∧ 2 ^ (8 * bs.length - 1) ≤ unbe bs then (unbe bs : Int) - 2 ^ (8 * bs.length)
      else unbe bs := by
  cases signed <;> simp [decodeField, sext]

/-- The walk at a known type byte whose value is cut short. -/
theorem decodeStream_truncated (p : Params) (ch t : Byte) (rest : List Byte) (k : LppKind)
    (hk : p.lppCodes.kindOf t = some k) (hlen : rest.length < k.size) :
    decodeStream p (ch :: t :: rest) = .error .codecTruncated := by
  rw [decodeStream, List.length_cons, decodeWalk]
  simp only [hk, if_pos hlen]

/-- The walk fails in one way only. -/
theorem decodeWalk_error {codes : LppCodes} {advance fuel : Nat} {stream : List Byte} {e : Status}
    (h : decodeWalk codes advance fuel stream = .error e) : e = .codecTruncated := by
  induction fuel, stream using decodeWalk.induct codes advance with
  | case1 => simp [decodeWalk] at h
  | case2 => simp [decodeWalk] at h
  | case3 => simpa [decodeWalk] using h.symm
  | case4 fuel ch t rest hk ih => exact ih (by simpa [decodeWalk, hk] using h)
  | case5 fuel ch t rest k hk hlen => simpa [decodeWalk, hk, hlen] using h.symm
  | case6 fuel ch t rest k hk hlen rs hrs ih => simp [decodeWalk, hk, hlen, hrs] at h
  | case7 fuel ch t rest k hk hlen e' he ih =>
    exact ih (by simpa [decodeWalk, hk, hlen, he] using h)

/-- Settles O49: the walk's branches are `decodeStream_unknown`, `decodeStream_truncated` and
`decodeStream_element`; in the last one every field lies whole in the stream, so it is as wide as its
type says. -/
theorem decoderWalk : Obligations.DecoderWalk := by
  intro p
  refine ⟨rfl, fun _ => rfl, decodeStream_unknown p, decodeStream_truncated p, ?element⟩
  intro ch t rest k hk hlen
  have hfields : decodeFields k.signed k.width k.fields rest =
      (List.range k.fields).map fun j =>
        let raw := unbe ((rest.drop (j * k.width)).take k.width)
        if k.signed = true ∧ 2 ^ (8 * k.width - 1) ≤ raw then (raw : Int) - 2 ^ (8 * k.width)
        else raw := by
    rw [decodeFields_eq_map]
    refine List.map_congr_left fun j hj => ?_
    have hwhole : (j + 1) * k.width ≤ k.fields * k.width :=
      Nat.mul_le_mul_right _ (List.mem_range.1 hj)
    have hwidth : ((rest.drop (j * k.width)).take k.width).length = k.width := by
      rw [List.length_take, List.length_drop]
      rw [Nat.succ_mul] at hwhole
      omega
    rw [decodeField_eq_ite, hwidth]
  rw [decodeStream_element p ch t rest k hk hlen, hfields, LppKind.size]
  cases decodeStream p (rest.drop (k.fields * k.width)) <;> rfl

end Sys2Proof

namespace Sys2Proof.Machine

open Sys2Proof

/-! ## The encoder buffer (43_codec.md R253) -/

theorem appendElement_ok {s : State} {el : List Byte}
    (h : s.encBuf.length + el.length ≤ s.params.encCap) :
    appendElement el s = .ok () (s.setEncBuf (s.encBuf ++ el)) := if_pos h

theorem appendElement_error {s : State} {el : List Byte}
    (h : ¬ s.encBuf.length + el.length ≤ s.params.encCap) :
    appendElement el s = .error .lengthError s := if_neg h

/-- `Append(el)` as the last step of a command: the whole element, or nothing and `LENGTH_ERROR`. -/
theorem runCommand_appendElement (el : List Byte) (s : State) :
    runCommand (appendElement el >>= fun _ => done) s =
      .next (if s.encBuf.length + el.length ≤ s.params.encCap then
        (s.setEncBuf (s.encBuf ++ el)).ended .ok []
      else s.ended .lengthError []) := by
  split
  · next hcap => exact runCommand_bind_ok (appendElement_ok hcap) _
  · next hcap => exact runCommand_bind_error (appendElement_error hcap) _

/-! ## The element encoders (43_codec.md R255 to R258) -/

theorem runCommand_encodeCommand_of_not_fits {k : LppKind} {qs : List Int}
    (h : ∃ q ∈ qs, fieldFits k.signed k.width q = false) (ch : Byte) (s : State) :
    runCommand (encodeCommand k ch qs) s = .next (s.ended .codecRange []) := by
  refine runCommand_of_error ?_
  simp [encodeCommand, encodeElement_of_not_fits h]

/-- Where every field fits, the element is appended whole or, past the buffer's capacity, not at all. -/
theorem runCommand_encodeCommand_of_fits {k : LppKind} {qs : List Int}
    (h : ∀ q ∈ qs, fieldFits k.signed k.width q = true) (ch : Byte) (s : State) :
    runCommand (encodeCommand k ch qs) s =
      .next (if s.encBuf.length + (2 + qs.length * k.width) ≤ s.params.encCap then
        (s.setEncBuf (s.encBuf ++
          ch :: s.params.lppCodes.codeOf k :: qs.flatMap (beInt k.width))).ended .ok []
      else s.ended .lengthError []) := by
  have hlen : (ch :: s.params.lppCodes.codeOf k :: qs.flatMap (beInt k.width)).length =
      2 + qs.length * k.width := by
    simp only [List.length_cons, List.length_flatMap, beInt_length, List.map_const', List.sum_replicate,
      smul_eq_mul]
    omega
  rw [encodeCommand, runCommand_bind_ok (params_apply s), encodeElement_of_fits h, ← hlen]
  exact runCommand_appendElement _ s

/-- An encoder of signed fields, on word operands: the range check of every field, then the capacity check,
then the low bytes of the words. -/
theorem runCommand_encodeCommand_words {k : LppKind} (hk : k.signed = true) (ch : Byte)
    (ws : List Word) (s : State) :
    runCommand (encodeCommand k ch (ws.map BitVec.toInt)) s =
      .next (if ∃ q ∈ ws, q.toInt < -2 ^ (8 * k.width - 1) ∨ 2 ^ (8 * k.width - 1) - 1 < q.toInt then
        s.ended .codecRange []
      else if s.encBuf.length + (2 + ws.length * k.width) ≤ s.params.encCap then
        (s.setEncBuf (s.encBuf ++
          ch :: s.params.lppCodes.codeOf k :: ws.flatMap fun q => beNat k.width q.toNat)).ended .ok []
      else s.ended .lengthError []) := by
  have hwidth : 8 * k.width ≤ 32 := by cases k <;> decide
  have hbytes : (ws.map BitVec.toInt).flatMap (beInt k.width) =
      ws.flatMap fun q => beNat k.width q.toNat := by
    simp only [List.flatMap_map, beInt_toInt _ hwidth]
  have hrange : (∃ q ∈ ws, q.toInt < -2 ^ (8 * k.width - 1) ∨ 2 ^ (8 * k.width - 1) - 1 < q.toInt) ↔
      ∃ q ∈ ws.map BitVec.toInt, fieldFits k.signed k.width q = false := by
    simp [hk, fieldFits_signed_eq_false]
  split
  · next hout => exact runCommand_encodeCommand_of_not_fits (hrange.1 hout) ch s
  · next hin =>
    have hfits : ∀ q ∈ ws.map BitVec.toInt, fieldFits k.signed k.width q = true := by
      simpa only [hrange, not_exists, not_and, Bool.not_eq_false] using hin
    rw [runCommand_encodeCommand_of_fits hfits, hbytes, List.length_map]

/-! ## The commands (43_codec.md sections 2 and 3) -/

/-- Settles O43: the buffer is emptied, and the command ends. -/
theorem encResetRule : Obligations.EncResetRule := by
  refine ⟨rfl, fun s => ?_⟩
  exact runCommand_bind_ok (update_apply (State.setEncBuf · []) s) fun _ => done

/-- Settles O44: the command reads the state it began in and ends there. -/
theorem encReadRule : Obligations.EncReadRule := ⟨rfl, fun _ => rfl⟩

/-- Settles O45: a byte always fits its field, so the capacity check alone decides. -/
theorem encDigitalRule : Obligations.EncDigitalRule := by
  intro s ch v
  refine ⟨rfl, ?_⟩
  have hfits : ∀ q ∈ [(v.toNat : Int)],
      fieldFits LppKind.digitalInput.signed LppKind.digitalInput.width q = true :=
    List.forall_mem_singleton.2 (fieldFits_byte v)
  refine (runCommand_encodeCommand_of_fits hfits ch s).trans ?_
  simp [LppKind.width, LppCodes.codeOf, beInt_one_toNat]

/-- Settles O46: `runCommand_encodeCommand_words` on one field of two bytes. -/
theorem encAnalogRule : Obligations.EncAnalogRule := by
  intro s ch q
  refine ⟨?decode, ?run⟩
  case decode => simp [decodeCommand, tableO, decodeOperands]
  case run =>
    refine (runCommand_encodeCommand_words (k := .analogInput) rfl ch [q] s).trans ?_
    simp [LppKind.width, LppCodes.codeOf, beNat_two_toNat]

/-- Settles O47: `runCommand_encodeCommand_words` on three fields of two bytes. -/
theorem encAccelRule : Obligations.EncAccelRule := by
  intro s ch qx qy qz
  refine ⟨?decode, ?run⟩
  case decode => simp [wordBytes_eq_extractLsb', decodeCommand, tableO, decodeOperands]
  case run =>
    refine (runCommand_encodeCommand_words (k := .accelerometer) rfl ch [qx, qy, qz] s).trans ?_
    simp [LppKind.width, LppCodes.codeOf, beNat_two_toNat]

/-- Settles O48: `runCommand_encodeCommand_words` on three fields of three bytes. -/
theorem encGpsRule : Obligations.EncGpsRule := by
  intro s ch qlat qlon qalt
  refine ⟨?decode, ?run⟩
  case decode => simp [wordBytes_eq_extractLsb', decodeCommand, tableO, decodeOperands]
  case run =>
    refine (runCommand_encodeCommand_words (k := .gps) rfl ch [qlat, qlon, qalt] s).trans ?_
    simp [LppKind.width, LppCodes.codeOf, beNat_three_toNat]

/-- A frame of `LPP_DECODE` whose length operand is its stream's length (30_encoding.md R93). -/
theorem decodeCommand_lppDecode {a b : Byte} {stream : List Byte}
    (h : stream.length = a.toNat * 256 + b.toNat) :
    decodeCommand (0x38 :: a :: b :: stream) = .ok (.lppDecode stream) := by
  have hlen : stream.length = unbe [a, b] := by simp [h, unbe_cons]
  simp [decodeCommand, tableO, decodeOperands, hlen]

theorem exec_lppDecode_ok {s : State} {stream : List Byte} {rs : List Record}
    (h : decodeStream s.params stream = .ok rs) :
    exec (.lppDecode stream) s = .next (s.ended .ok (recordsBytes rs)) := by
  refine (runCommand_bind_ok (params_apply s) _).trans ?_
  rw [h]
  rfl

theorem exec_lppDecode_error {s : State} {stream : List Byte} {e : Status}
    (h : decodeStream s.params stream = .error e) :
    exec (.lppDecode stream) s = .next (s.ended e []) := by
  refine (runCommand_bind_ok (params_apply s) _).trans ?_
  rw [h]
  rfl

/-- Settles O50: the command ends as the walk does, and the walk fails in one way only. -/
theorem lppDecodeRule : Obligations.LppDecodeRule := by
  intro s stream
  refine ⟨fun _ _ => decodeCommand_lppDecode, fun _ => exec_lppDecode_ok, fun e he => ?_⟩
  obtain rfl : e = .codecTruncated := decodeWalk_error he
  exact ⟨rfl, exec_lppDecode_error he⟩

end Sys2Proof.Machine
end

section
/-! The end of every command (60_exceptions.md R304, R305): a command frame of any bytes ends with one
status, data go with OK only, and the bookkeeping is made of that status and of nothing before it. -/

namespace Sys2Proof

/-! ## Status codes (R300) -/

theorem Status.mem_all (st : Status) : st ∈ Status.all := by cases st <;> decide

theorem Status.code_injective : Function.Injective Status.code := by
  have hcodes : (Status.all.map Status.code).Nodup := by decide
  exact fun a b => List.inj_on_of_nodup_map hcodes a.mem_all b.mem_all

/-! ## What a command frame decodes to (30_encoding.md R93, R94) -/

/-- The instructions that end with the bookkeeping of R305: every command but `GET_STATUS`. -/
def Instr.bookkept (i : Instr) : Prop :=
  i ≠ .getStatus ∧ i.family ≠ .busFrame ∧ i.family ≠ .element

/-- Every row of table O is a command, and `GET_STATUS` is the row 03 without operands. -/
theorem decodeOperands_cases {op : Nat} {args : List Byte} {i : Instr}
    (h : decodeOperands op args = some i) : i.bookkept ∨ (op = 0x03 ∧ args = []) := by
  unfold decodeOperands at h
  split at h
  case h_3 =>
    split at h <;> cases h
    exact .inr ⟨rfl, rfl⟩
  all_goals
    refine .inl ?_
    repeat' split at h
    all_goals cases h
    all_goals simp [Instr.bookkept, Instr.family]

theorem decodeCommand_bookkept {f : List Byte} {i : Instr} (h : decodeCommand f = .ok i)
    (hf : f ≠ [0x03]) : i.bookkept := by
  unfold decodeCommand at h
  repeat' split at h
  all_goals cases h
  next op args _ _ hop =>
    refine (decodeOperands_cases hop).resolve_right fun ⟨hthree, hnil⟩ => hf ?_
    rw [hnil, BitVec.eq_of_toNat_eq (x := op) (y := 0x03) hthree]

theorem decodeCommand_error_status {f : List Byte} {e : DecodeError}
    (h : decodeCommand f = .error e) : ∃ st, e = .status st := by
  unfold decodeCommand at h
  repeat' split at h
  all_goals cases h
  all_goals exact ⟨_, rfl⟩

end Sys2Proof

namespace Sys2Proof.Machine

open Sys2Proof

/-! ## Which data a command answers (R304) -/

/-- A status and data that may end a command: a status other than OK carries no data. -/
def DataOnlyWithOk (r : Status × List Byte) : Prop := r.1 ≠ .ok → r.2 = []

/-- A sequence that raises no status hands on a value of which `P` holds. -/
def Act.Returns {α : Type} (P : α → Prop) (x : Act α) : Prop := ∀ s a s', x s = .ok a s' → P a

/-- What a sequence hands on is told by its last step. -/
theorem Act.returns_bind {α β : Type} {P : β → Prop} {x : Act α} {f : α → Act β}
    (h : ∀ a, Act.Returns P (f a)) : Act.Returns P (x >>= f) := by
  intro s b s' hok
  rw [act_bind] at hok
  split at hok
  · next a s₁ _ => exact h a s₁ b s' hok
  · cases hok

theorem Act.returns_ite {α : Type} {P : α → Prop} {c : Prop} [Decidable c] {x y : Act α}
    (hx : Act.Returns P x) (hy : Act.Returns P y) : Act.Returns P (if c then x else y) := by
  split
  · exact hx
  · exact hy

theorem returns_throw {α : Type} {P : α → Prop} (e : Status) : Act.Returns P (throw e : Act α) := by
  intro s a s' h
  cases h

theorem returns_doneData (data : List Byte) : Act.Returns DataOnlyWithOk (doneData data) := by
  intro s r s' h
  cases h
  exact fun hst => absurd rfl hst

theorem returns_done : Act.Returns DataOnlyWithOk done := returns_doneData []

theorem returns_doneWith (st : Status) : Act.Returns DataOnlyWithOk (doneWith st) := by
  intro s r s' h
  cases h
  exact fun _ => rfl

theorem returns_configure (sequence : Act Unit) : Act.Returns DataOnlyWithOk (configure sequence) :=
  Act.returns_bind fun _ => Act.returns_bind fun _ => Act.returns_bind fun _ => returns_done

theorem returns_encodeCommand (k : LppKind) (ch : Byte) (qs : List Int) :
    Act.Returns DataOnlyWithOk (encodeCommand k ch qs) := by
  refine Act.returns_bind fun p => ?_
  cases encodeElement p.lppCodes k ch qs with
  | none => exact returns_throw _
  | some el => exact Act.returns_bind fun _ => returns_done

/-! ## What the bookkeeping is made of (R305) -/

/-- The state a command ends in tells the status and data it ended with. -/
theorem State.ended_inj {u v : State} {st st' : Status} {data data' : List Byte}
    (h : u.ended st data = v.ended st' data') : st = st' ∧ data = data' := by
  have hout : u.outbox ++ [.result st.code data] = v.outbox ++ [.result st'.code data'] :=
    congrArg State.outbox h
  obtain ⟨-, hlast⟩ := List.append_inj' hout rfl
  injection hlast with hlast
  injection hlast with hcode hdata
  exact ⟨Status.code_injective hcode, hdata⟩

theorem recordFault_eq_ite (faults : BitVec 16) (st : Status) : recordFault faults st =
    if 0x10 ≤ st.code.toNat then faults ||| (1 <<< (st.code.toNat - 0x10)) else faults := by
  have hbit (n : Nat) : (1 : BitVec 16) <<< n = ((1 <<< n : Nat) : BitVec 16) := rfl
  simp only [recordFault, Status.isFault, decide_eq_true_eq, hbit]

/-- Two states with the same records for the bookkeeping to add to: the answers and the faults. -/
def State.sameBookkeeping (s t : State) : Prop := t.outbox = s.outbox ∧ t.faults = s.faults

theorem State.sameBookkeeping_operationClosed : OperationClosed State.sameBookkeeping where
  refl _ := ⟨rfl, rfl⟩
  trans := by
    rintro a b c ⟨hout, hfaults⟩ ⟨hout', hfaults'⟩
    exact ⟨hout'.trans hout, hfaults'.trans hfaults⟩
  afterTxn s d out := by simp [State.sameBookkeeping]
  pin s line level := by simp [State.sameBookkeeping]
  wait _ _ _ := ⟨rfl, rfl⟩
  writeRadioState _ _ := ⟨rfl, rfl⟩
  writeRadioLife _ _ := ⟨rfl, rfl⟩
  hazardChecked s := by simp [State.sameBookkeeping]
  writeCanLife _ _ := ⟨rfl, rfl⟩
  writeCanMode _ _ := ⟨rfl, rfl⟩
  clearBuffer _ := ⟨rfl, rfl⟩
  append _ _ _ := ⟨rfl, rfl⟩

/-! ## Commands -/

/-- A command that starts in `s` ends with one status, of which the bookkeeping is made, and with data
only where that status is OK. -/
def EndsOnce (s : State) (o : Host.Outcome State Fault Refusal) : Prop :=
  ∃ u st data, s.sameBookkeeping u ∧ o = .next (u.ended st data) ∧ (st ≠ .ok → data = [])

/-- The status and data a command returns are the ones its outcome is made of. -/
theorem EndsVia.endsOnce {body : Act (Status × List Byte)} {s : State}
    (h : EndsVia State.sameBookkeeping s (runCommand body s))
    (hbody : Act.Returns DataOnlyWithOk body) : EndsOnce s (runCommand body s) := by
  obtain ⟨u, st, data, hu, hrun⟩ := h
  refine ⟨u, st, data, hu, hrun, fun hst => ?_⟩
  rw [runCommand_next] at hrun
  injection hrun with hrun
  obtain ⟨r, v, hr, hv⟩ | ⟨e, v, -, hv⟩ := State.afterCommand_cases s body <;>
    obtain ⟨rfl, rfl⟩ := State.ended_inj (hv.symm.trans hrun)
  · exact hbody s r v hr hst
  · rfl

/-! ### Commands that end in several ways -/

theorem endsOnce_radioTransmit (payload : List Byte) (s : State) :
    EndsOnce s (execRadioTransmit payload s) := by
  refine (State.sameBookkeeping_operationClosed.endsVia_radioTransmit payload s).endsOnce ?_
  iterate 10 refine Act.returns_bind fun _ => ?_
  refine Act.returns_ite ?seen ?timeout
  case seen => exact Act.returns_bind fun _ => returns_done
  case timeout => exact Act.returns_bind fun _ => returns_doneWith _

theorem endsOnce_radioPollRx (s : State) : EndsOnce s (execRadioPollRx s) := by
  refine (State.sameBookkeeping_operationClosed.endsVia_radioPollRx s).endsOnce ?_
  iterate 4 refine Act.returns_bind fun _ => ?_
  refine Act.returns_ite (Act.returns_ite ?dropped ?received) (returns_doneWith _)
  case dropped => exact Act.returns_bind fun _ => Act.returns_bind fun _ => returns_doneWith _
  case received =>
    iterate 5 refine Act.returns_bind fun _ => ?_
    exact returns_doneData _

theorem endsOnce_radioBlockingRx (timeoutMs : Word) (s : State) :
    EndsOnce s (execRadioBlockingRx timeoutMs s) := by
  refine (State.sameBookkeeping_operationClosed.endsVia_radioBlockingRx timeoutMs s).endsOnce ?_
  iterate 5 refine Act.returns_bind fun _ => ?_
  refine Act.returns_bind fun event => ?_
  cases event with
  | none => exact Act.returns_bind fun _ => Act.returns_bind fun _ => returns_doneWith _
  | some f =>
    refine Act.returns_ite ?dropped ?received
    case dropped => exact Act.returns_bind fun _ => Act.returns_bind fun _ => returns_doneWith _
    case received =>
      iterate 3 refine Act.returns_bind fun _ => ?_
      exact returns_doneData _

theorem endsOnce_canInit (xtal bitrate : Word) (mode : Byte) (s : State) :
    EndsOnce s (execCanInit xtal bitrate mode s) := by
  refine (State.sameBookkeeping_operationClosed.endsVia_canInit xtal bitrate mode s).endsOnce ?_
  refine Act.returns_bind fun p => ?_
  iterate 3 refine Act.returns_bind fun _ => ?_
  cases p.timing xtal.toNat bitrate.toNat with
  | none => exact Act.returns_bind fun _ => returns_throw _
  | some t =>
    iterate 5 refine Act.returns_bind fun _ => ?_
    exact returns_done

theorem endsOnce_canReceive (s : State) : EndsOnce s (execCanReceive s) := by
  refine (State.sameBookkeeping_operationClosed.endsVia_canReceive s).endsOnce ?_
  iterate 3 refine Act.returns_bind fun _ => ?_
  refine Act.returns_ite ?received (returns_doneWith _)
  case received =>
    iterate 4 refine Act.returns_bind fun _ => ?_
    exact returns_doneData _

theorem endsOnce_lppDecode (stream : List Byte) (s : State) :
    EndsOnce s (execLppDecode stream s) := by
  refine (State.sameBookkeeping_operationClosed.endsVia_lppDecode stream s).endsOnce ?_
  refine Act.returns_bind fun p => ?_
  cases decodeStream p stream with
  | ok rs => exact returns_doneData _
  | error e => exact returns_throw e

/-! ### Commands that end in one way where no step raises -/

theorem endsOnce_radioInit (freq bw sf cr preamble : Word) (sync : Byte) (txpow : Word) (crc : Byte)
    (s : State) : EndsOnce s (execRadioInit freq bw sf cr preamble sync txpow crc s) := by
  refine (State.sameBookkeeping_operationClosed.endsVia_radioInit
    freq bw sf cr preamble sync txpow crc s).endsOnce ?_
  iterate 16 refine Act.returns_bind fun _ => ?_
  exact returns_done

theorem endsOnce_canSend (id : Word) (data : List Byte) (s : State) :
    EndsOnce s (execCanSend id data s) := by
  refine (State.sameBookkeeping_operationClosed.endsVia_canSend id data s).endsOnce ?_
  iterate 8 refine Act.returns_bind fun _ => ?_
  exact returns_done

theorem endsOnce_configure {sequence : Act Unit} (h : Act.Keeps State.sameBookkeeping sequence)
    (s : State) : EndsOnce s (runCommand (configure sequence) s) :=
  (State.sameBookkeeping_operationClosed.endsVia_configure h s).endsOnce (returns_configure _)

theorem endsOnce_encodeCommand (k : LppKind) (ch : Byte) (qs : List Int) (s : State) :
    EndsOnce s (runCommand (encodeCommand k ch qs) s) :=
  (State.sameBookkeeping_operationClosed.endsVia_encodeCommand k ch qs s).endsOnce
    (returns_encodeCommand k ch qs)

theorem endsOnce_lppEncRead (s : State) : EndsOnce s (execLppEncRead s) :=
  (State.sameBookkeeping_operationClosed.endsVia_lppEncRead s).endsOnce
    fun s => returns_doneData (BitVec.ofNat 8 s.encBuf.length :: s.encBuf) s

/-- Every command but `GET_STATUS` ends once. -/
theorem exec_endsOnce {i : Instr} (hi : i.bookkept) (s : State) : EndsOnce s (exec i s) := by
  have hR := State.sameBookkeeping_operationClosed
  obtain ⟨hget, hbus, helement⟩ := hi
  cases i with
  | busWrite dev addr val =>
    exact (hR.endsVia_busWrite dev addr val s).endsOnce
      (Act.returns_bind fun _ => Act.returns_bind fun _ => returns_done)
  | busRead dev addr =>
    exact (hR.endsVia_busRead dev addr s).endsOnce
      (Act.returns_bind fun _ => Act.returns_bind fun _ => returns_doneData _)
  | getStatus => exact absurd rfl hget
  | radioInit freq bw sf cr preamble sync txpow crc =>
    exact endsOnce_radioInit freq bw sf cr preamble sync txpow crc s
  | radioTransmit payload => exact endsOnce_radioTransmit payload s
  | radioStartRx =>
    exact (hR.endsVia_radioStartRx s).endsOnce
      (Act.returns_bind fun _ => Act.returns_bind fun _ => Act.returns_bind fun _ =>
        Act.returns_bind fun _ => returns_done)
  | radioPollRx => exact endsOnce_radioPollRx s
  | radioBlockingRx timeoutMs => exact endsOnce_radioBlockingRx timeoutMs s
  | radioSleep =>
    exact (hR.endsVia_modeCommand _ s).endsOnce
      (Act.returns_bind fun _ => Act.returns_bind fun _ => returns_done)
  | radioStandby =>
    exact (hR.endsVia_modeCommand _ s).endsOnce
      (Act.returns_bind fun _ => Act.returns_bind fun _ => returns_done)
  | radioSetFrequency freq => exact endsOnce_configure (hR.keeps_setFrequency _) s
  | radioSetBandwidth bw => exact endsOnce_configure (hR.keeps_setBandwidth _) s
  | radioSetLnaAgc => exact endsOnce_configure hR.keeps_setLnaAgc s
  | radioSetTxPower txpow => exact endsOnce_configure (hR.keeps_setTxPower _) s
  | radioSetSf sf => exact endsOnce_configure (hR.keeps_setSpreadingFactor _) s
  | radioSetCr cr => exact endsOnce_configure (hR.keeps_setCodingRate _) s
  | radioSetPreamble preamble => exact endsOnce_configure (hR.keeps_setPreamble _) s
  | radioSetSyncWord sync => exact endsOnce_configure (hR.keeps_setSyncWord _) s
  | radioSetCrc crc =>
    exact (hR.endsVia_radioSetCrc crc s).endsOnce (Act.returns_bind fun _ => returns_configure _)
  | canInit xtal bitrate mode => exact endsOnce_canInit xtal bitrate mode s
  | canSetMode mode =>
    exact (hR.endsVia_canSetMode mode s).endsOnce
      (Act.returns_bind fun _ => Act.returns_bind fun _ => Act.returns_bind fun _ =>
        Act.returns_bind fun _ => returns_done)
  | canSend id data => exact endsOnce_canSend id data s
  | canReceive => exact endsOnce_canReceive s
  | lppEncReset =>
    exact (hR.endsVia_lppEncReset s).endsOnce (Act.returns_bind fun _ => returns_done)
  | lppEncDigital ch v => exact endsOnce_encodeCommand _ _ _ s
  | lppEncAnalog ch q => exact endsOnce_encodeCommand _ _ _ s
  | lppEncAccel ch qx qy qz => exact endsOnce_encodeCommand _ _ _ s
  | lppEncGps ch qlat qlon qalt => exact endsOnce_encodeCommand _ _ _ s
  | lppEncRead => exact endsOnce_lppEncRead s
  | lppDecode stream => exact endsOnce_lppDecode stream s
  | busframeRadioWrite addr val => exact absurd rfl hbus
  | busframeRadioRead addr => exact absurd rfl hbus
  | busframeCanWrite addr val => exact absurd rfl hbus
  | busframeCanRead addr => exact absurd rfl hbus
  | busframeCanReset => exact absurd rfl hbus
  | busframeCanRts mask => exact absurd rfl hbus
  | lppDigitalInput ch v => exact absurd rfl helement
  | lppAnalogInput ch v => exact absurd rfl helement
  | lppAccelerometer ch x y z => exact absurd rfl helement
  | lppGps ch lat lon alt => exact absurd rfl helement

/-! ## The step of a command frame -/

/-- A frame other than the frame 03 ends once, whether it decodes to a command or is refused. -/
theorem step_command_endsOnce {s : State} {f : List Byte} {rest : List Input}
    (hin : s.inbox = .command f :: rest) (hf : f ≠ [0x03]) : EndsOnce (s.setInbox rest) (step s) := by
  cases hdecode : decodeCommand f with
  | ok i =>
    rw [step_command_ok hin hdecode]
    exact exec_endsOnce (decodeCommand_bookkept hdecode hf) _
  | error e =>
    obtain ⟨st, rfl⟩ := decodeCommand_error_status hdecode
    rw [step_command_error hin hdecode]
    exact ⟨_, st, [], State.sameBookkeeping_operationClosed.refl _, rfl, fun _ => rfl⟩

/-- Settles O13: the frame 03 is `GET_STATUS`, which answers OK and keeps the records; every other frame
ends once, and its bookkeeping adds to the records the frame found. -/
theorem endBookkeeping : Obligations.EndBookkeeping := by
  intro s f rest hin
  by_cases hf : f = [0x03]
  · subst hf
    have hstep := (step_command_ok hin rfl).trans (exec_getStatus (s.setInbox rest))
    exact ⟨_, .ok, _, hstep, rfl, fun hst => absurd rfl hst, rfl, rfl⟩
  · obtain ⟨u, st, data, ⟨hout, hfaults⟩, hstep, hdata⟩ := step_command_endsOnce hin hf
    refine ⟨u.ended st data, st, data, hstep, ?_, hdata, (if_neg hf).symm, ?_⟩
    · rw [State.ended_outbox, hout, State.setInbox_outbox]
    · rw [State.ended_faults, hfaults, State.setInbox_faults, recordFault_eq_ite]

end Sys2Proof.Machine
end

section
/-! The two encodings are inverse to each other (30_encoding.md sections 1, 3 and 4): command frames, bus
frames and payload elements, each with its decoder, and how a step takes an input. -/

namespace Sys2Proof

/-! ## Command frames (section 1) -/

theorem tableO_isSome_of_decodeOperands {op : Nat} {args : List Byte} {i : Instr}
    (h : decodeOperands op args = some i) : (tableO op).isSome = true := by
  unfold decodeOperands at h
  split at h
  case h_31 => cases h
  all_goals rfl

theorem decodeCommand_of_operands {op : Byte} {args : List Byte} {i : Instr}
    (h : decodeOperands op.toNat args = some i) : decodeCommand (op :: args) = .ok i := by
  simp [decodeCommand, tableO_isSome_of_decodeOperands h, h]

theorem operands_of_decodeCommand {f : List Byte} {i : Instr} (h : decodeCommand f = .ok i) :
    ∃ op args, f = op :: args ∧ decodeOperands op.toNat args = some i := by
  unfold decodeCommand at h
  repeat' split at h
  all_goals cases h
  next op args _ _ hop => exact ⟨op, args, rfl, hop⟩

/-- The two bytes of a length, where it fits them. -/
theorem unbe_lengthBytes {n : Nat} (h : n < 65536) :
    n = unbe [BitVec.ofNat 8 (n / 256 ^ 1), BitVec.ofNat 8 (n / 256 ^ 0)] := by
  have hn : unbe (beNat 2 n) = n := by rw [unbe_beNat]; exact Nat.mod_eq_of_lt h
  exact hn.symm

/-- A row's operands come back from the bytes they are written as, where its list fits its length. -/
theorem decodeCommand_encode {codes : LppCodes} {i : Instr} {f : List Byte}
    (hfits : i.fits = true) (hf : encode codes i = .command f) : decodeCommand f = .ok i := by
  cases i with
  | radioTransmit payload =>
    cases hf
    have hlen : payload.length < 256 := of_decide_eq_true hfits
    exact decodeCommand_of_operands (if_pos (Nat.mod_eq_of_lt hlen).symm)
  | canSend id data =>
    cases hf
    have hlen : data.length < 256 := of_decide_eq_true hfits
    exact decodeCommand_of_operands <|
      (if_pos (Nat.mod_eq_of_lt hlen).symm).trans (by rw [wordOf_wordBytes])
  | lppDecode stream =>
    cases hf
    exact decodeCommand_of_operands (if_pos (unbe_lengthBytes (of_decide_eq_true hfits)))
  | busframeRadioWrite _ _ | busframeRadioRead _ | busframeCanWrite _ _ | busframeCanRead _
  | busframeCanReset | busframeCanRts _ | lppDigitalInput _ _ | lppAnalogInput _ _
  | lppAccelerometer _ _ _ _ | lppGps _ _ _ _ => cases hf
  | _ =>
    cases hf
    exact decodeCommand_of_operands (by simp [decodeOperands, wordBytes_eq_extractLsb'])

/-- The bytes of a length are the ones it was read from. -/
theorem beNat_of_eq_unbe {bs : List Byte} {n : Nat} (h : n = unbe bs) : beNat bs.length n = bs := by
  rw [h, beNat_unbe]

theorem ofNat_of_eq_toNat {b : Byte} {n : Nat} (h : n = b.toNat) : BitVec.ofNat 8 n = b := by
  rw [h, BitVec.ofNat_toNat, BitVec.setWidth_eq]

/-- What a row makes of its operands is written as those operands, and its list fits its length. -/
theorem encode_of_decodeOperands (codes : LppCodes) {op : Nat} {args : List Byte} {i : Instr}
    (h : decodeOperands op args = some i) :
    i.fits = true ∧ encode codes i = .command (BitVec.ofNat 8 op :: args) := by
  unfold decodeOperands at h
  split at h
  case h_5 =>
    repeat' split at h
    all_goals cases h
    next len payload hlen =>
      exact ⟨decide_eq_true (hlen ▸ len.isLt), by rw [encode, ofNat_of_eq_toNat hlen]; rfl⟩
  case h_22 =>
    repeat' split at h
    all_goals cases h
    next a b c d dlc data hlen =>
      refine ⟨decide_eq_true (hlen ▸ dlc.isLt), ?_⟩
      rw [encode, ofNat_of_eq_toNat hlen, wordBytes_wordOf]
      rfl
  case h_30 =>
    repeat' split at h
    all_goals cases h
    next a b stream hlen =>
      have hbytes : beNat 2 stream.length = [a, b] := beNat_of_eq_unbe (bs := [a, b]) hlen
      have hlt : stream.length < 65536 := by simpa [hlen] using unbe_lt [a, b]
      refine ⟨decide_eq_true hlt, ?_⟩
      rw [encode, hbytes]
      rfl
  all_goals
    repeat' split at h
    all_goals cases h
    all_goals exact ⟨rfl, by simp [encode]⟩

/-! ## Bus frames (section 3)

Bit 7 of a radio frame's first byte tells a write from a read, and the address is the rest of it. -/

theorem msb_writeByte (addr : BitVec 7) : (0x80 ||| addr.setWidth 8 : Byte).msb = true := by
  rw [BitVec.msb_or, Bool.or_eq_true]
  exact .inl rfl

theorem msb_readByte (addr : BitVec 7) : (addr.setWidth 8 : Byte).msb = false := by
  simp [BitVec.msb_setWidth]

theorem writeByte_setWidth {b : Byte} (h : b.msb = true) :
    0x80 ||| (b.setWidth 7).setWidth 8 = b := by
  revert b
  decide

theorem readByte_setWidth {b : Byte} (h : b.msb = false) : (b.setWidth 7).setWidth 8 = b := by
  revert b
  decide

theorem decodeBusFrame_encode {codes : LppCodes} {i : Instr} {dev : Device} {f : List Byte}
    (hfits : i.fits = true) (hf : encode codes i = .bus dev f) : decodeBusFrame dev f = .ok i := by
  cases i with
  | busframeRadioWrite addr val =>
    cases hf
    rw [decodeBusFrame, if_pos (msb_writeByte addr)]
    simp
  | busframeRadioRead addr =>
    cases hf
    rw [decodeBusFrame, if_neg (by simp [msb_readByte])]
    simp
  | busframeCanRts mask =>
    cases hf
    revert mask
    decide
  | busframeCanWrite _ _ | busframeCanRead _ | busframeCanReset =>
    cases hf
    rfl
  | _ => cases hf

theorem encode_of_decodeBusFrame (codes : LppCodes) {i : Instr} {dev : Device} {f : List Byte}
    (h : decodeBusFrame dev f = .ok i) : i.fits = true ∧ encode codes i = .bus dev f := by
  unfold decodeBusFrame at h
  repeat' split at h
  all_goals cases h
  case h_1.isTrue hmsb => exact ⟨rfl, by rw [encode, writeByte_setWidth hmsb]⟩
  case h_1.isFalse.isTrue hmsb hval =>
    exact ⟨rfl, by rw [encode, readByte_setWidth (Bool.eq_false_of_not_eq_true hmsb), hval]⟩
  case h_3.isFalse.isTrue hread =>
    obtain ⟨rfl, rfl⟩ := hread
    exact ⟨rfl, rfl⟩
  all_goals
    next hbyte =>
      subst hbyte
      exact ⟨rfl, rfl⟩

/-! ## Payload elements (section 4) -/

theorem LppCodes.codeOf_of_kindOf {c : LppCodes} {t : Byte} {k : LppKind} (h : c.kindOf t = some k) :
    c.codeOf k = t := by
  unfold LppCodes.kindOf at h
  repeat' split at h
  all_goals cases h
  all_goals exact Eq.symm ‹_›

/-- Where the four codes are distinct, each is read as its own type (43_codec.md R251). -/
theorem LppCodes.kindOf_codeOf {c : LppCodes} (h : c.distinct = true) (k : LppKind) :
    c.kindOf (c.codeOf k) = some k := by
  simp only [LppCodes.distinct, decide_eq_true_eq, List.nodup_cons, List.mem_cons, not_or] at h
  obtain ⟨⟨hda, hdc, hdg, -⟩, ⟨hac, hag, -⟩, ⟨hcg, -⟩, -⟩ := h
  cases k <;>
    simp [LppCodes.codeOf, LppCodes.kindOf, Ne.symm hda, Ne.symm hdc, Ne.symm hdg, Ne.symm hac,
      Ne.symm hag, Ne.symm hcg]

/-- A field's bytes come back from the field they were read into. -/
theorem beNat_ofNat_unbe {n : Nat} {bs : List Byte} (h : bs.length = n) :
    beNat n (BitVec.ofNat (8 * n) (unbe bs)).toNat = bs := by
  subst h
  rw [BitVec.toNat_ofNat, ← pow256, beNat_mod _ _ _ le_rfl, beNat_unbe]

/-- A field comes back from its bytes. -/
theorem ofNat_unbe_beNat (n : Nat) (v : BitVec (8 * n)) :
    BitVec.ofNat (8 * n) (unbe (beNat n v.toNat)) = v := by
  rw [unbe_beNat, pow256, Nat.mod_eq_of_lt v.isLt, BitVec.ofNat_toNat, BitVec.setWidth_eq]

theorem exists_bytes_of_field16 (v : BitVec 16) :
    ∃ a b, beNat 2 v.toNat = [a, b] ∧ BitVec.ofNat 16 (unbe [a, b]) = v :=
  ⟨_, _, rfl, ofNat_unbe_beNat 2 v⟩

theorem exists_bytes_of_field24 (v : BitVec 24) :
    ∃ a b c, beNat 3 v.toNat = [a, b, c] ∧ BitVec.ofNat 24 (unbe [a, b, c]) = v :=
  ⟨_, _, _, rfl, ofNat_unbe_beNat 3 v⟩

theorem field16_toNat_bytes (a b : Byte) :
    beNat 2 (BitVec.ofNat 16 (unbe [a, b])).toNat = [a, b] := beNat_ofNat_unbe (bs := [a, b]) rfl

theorem field24_toNat_bytes (a b c : Byte) :
    beNat 3 (BitVec.ofNat 24 (unbe [a, b, c])).toNat = [a, b, c] :=
  beNat_ofNat_unbe (bs := [a, b, c]) rfl

theorem decodeElement_encode {codes : LppCodes} (hcodes : codes.distinct = true) {i : Instr}
    {f : List Byte} (hf : encode codes i = .element f) : decodeElement codes f = .ok i := by
  have hkind := LppCodes.kindOf_codeOf hcodes
  cases i with
  | lppDigitalInput ch v =>
    cases hf
    have hdigital : codes.kindOf codes.digitalInput = some .digitalInput := hkind .digitalInput
    simp [decodeElement, hdigital]
  | lppAnalogInput ch v =>
    cases hf
    have hanalog : codes.kindOf codes.analogInput = some .analogInput := hkind .analogInput
    obtain ⟨a, b, hbytes, hv⟩ := exists_bytes_of_field16 v
    simp [decodeElement, hanalog, hbytes, hv]
  | lppAccelerometer ch x y z =>
    cases hf
    have haccel : codes.kindOf codes.accelerometer = some .accelerometer := hkind .accelerometer
    obtain ⟨a, b, hxbytes, hx⟩ := exists_bytes_of_field16 x
    obtain ⟨c, d, hybytes, hy⟩ := exists_bytes_of_field16 y
    obtain ⟨e, f, hzbytes, hz⟩ := exists_bytes_of_field16 z
    simp [decodeElement, haccel, hxbytes, hybytes, hzbytes, hx, hy, hz]
  | lppGps ch lat lon alt =>
    cases hf
    have hgps : codes.kindOf codes.gps = some .gps := hkind .gps
    obtain ⟨a, b, c, hlatbytes, hlat⟩ := exists_bytes_of_field24 lat
    obtain ⟨d, e, f, hlonbytes, hlon⟩ := exists_bytes_of_field24 lon
    obtain ⟨g, h, i, haltbytes, halt⟩ := exists_bytes_of_field24 alt
    simp [decodeElement, hgps, hlatbytes, hlonbytes, haltbytes, hlat, hlon, halt]
  | _ => cases hf

theorem encode_of_decodeElement {codes : LppCodes} {i : Instr} {f : List Byte}
    (h : decodeElement codes f = .ok i) : i.fits = true ∧ encode codes i = .element f := by
  unfold decodeElement at h
  repeat' split at h
  all_goals cases h
  all_goals
    next hkind =>
      obtain rfl := LppCodes.codeOf_of_kindOf hkind
      exact ⟨rfl, by simp only [encode, LppCodes.codeOf, field16_toNat_bytes, field24_toNat_bytes,
        List.cons_append, List.nil_append]⟩

/-! ## Inputs (00_scope.md R5) -/

/-- Settles O1: each of the three encodings has a decoder that undoes it. -/
theorem decodeInvertsEncode : Obligations.DecodeInvertsEncode := by
  intro codes i hcodes hfits
  cases henc : encode codes i with
  | command f => exact congrArg some (decodeCommand_encode hfits henc)
  | bus dev f => exact congrArg some (decodeBusFrame_encode hfits henc)
  | element f => exact congrArg some (decodeElement_encode hcodes henc)
  | coreReset => cases i <;> cases henc

/-- Settles O2: each of the three decoders reads only what the encoder writes. -/
theorem encodeInvertsDecode : Obligations.EncodeInvertsDecode := by
  intro codes x i h
  cases x with
  | command f =>
    obtain ⟨op, args, rfl, hargs⟩ := operands_of_decodeCommand (Option.some.inj h)
    have hop : BitVec.ofNat 8 op.toNat = op := by rw [BitVec.ofNat_toNat, BitVec.setWidth_eq]
    exact hop ▸ encode_of_decodeOperands codes hargs
  | bus dev f => exact encode_of_decodeBusFrame codes (Option.some.inj h)
  | element f => exact encode_of_decodeElement (Option.some.inj h)
  | coreReset => cases h

/-- Settles O3: each of these words is read by the row its first byte names. -/
theorem specWordsDecode : Obligations.SpecWordsDecode := by
  refine ⟨rfl, rfl, rfl, rfl, rfl, rfl, rfl, rfl, rfl, rfl, rfl, rfl⟩

end Sys2Proof

namespace Sys2Proof.Machine

open Sys2Proof

/-- A step whose first input holds an instruction runs it. -/
theorem step_of_decode {s : State} {x : Input} {rest : List Input} {i : Instr}
    (hin : s.inbox = x :: rest) (h : decodeInput s.params.lppCodes x = some (.ok i)) :
    step s = exec i (s.setInbox rest) := by
  simp [step, hin, State.decode, h]

/-- Settles O6: `step_of_decode`, the inbox without its first input being the state `exec` starts in. -/
theorem stepRunsDecodedInstruction : Obligations.StepRunsDecodedInstruction :=
  fun _ _ _ _ hin h => step_of_decode hin h

/-- With an empty inbox a step is a wait. -/
theorem step_of_inbox_nil {s : State} (h : s.inbox = []) : step s = .next s := by
  simp [step, h]

/-- Settles O7: `step_of_inbox_nil`. -/
theorem idleStepWaits : Obligations.IdleStepWaits := fun _ => step_of_inbox_nil

end Sys2Proof.Machine
end

section
/-! The codec's round trips (43_codec.md section 4), a payload element run on its own (section 3), and the
host's rounding with the pseudo-instructions that use it (30_encoding.md section 5). -/

namespace Sys2Proof

/-! ## A stream of encoded elements -/

theorem LppKind.width_pos (k : LppKind) : 0 < k.width := by cases k <;> decide

/-- Fields that decode to their values one by one decode to them as a list, whatever follows. -/
theorem decodeFields_flatMap {α : Type} {signed : Bool} {w : Nat} {enc : α → List Byte} {dec : α → Int}
    {xs : List α} (hlen : ∀ x ∈ xs, (enc x).length = w)
    (hdec : ∀ x ∈ xs, decodeField signed (enc x) = dec x) (rest : List Byte) :
    decodeFields signed w xs.length (xs.flatMap enc ++ rest) = xs.map dec := by
  induction xs with
  | nil => rfl
  | cons x xs ih =>
    obtain ⟨hx, hxs⟩ := List.forall_mem_cons.1 hlen
    obtain ⟨hdx, hdxs⟩ := List.forall_mem_cons.1 hdec
    rw [List.length_cons, decodeFields, List.flatMap_cons, List.append_assoc,
      List.take_left' hx, List.drop_left' hx, hdx, ih hxs hdxs, List.map_cons]

/-- An element that could be encoded is its header and the bytes of fields that fit. -/
theorem fits_of_encodeElement {codes : LppCodes} {k : LppKind} {ch : Byte} {qs : List Int}
    {bytes : List Byte} (h : encodeElement codes k ch qs = some bytes) :
    (∀ q ∈ qs, fieldFits k.signed k.width q = true) ∧
      bytes = ch :: codes.codeOf k :: qs.flatMap (beInt k.width) := by
  have hfits : ∀ q ∈ qs, fieldFits k.signed k.width q = true := by
    by_contra hout
    simp only [not_forall, Bool.not_eq_true] at hout
    obtain ⟨q, hq, hqout⟩ := hout
    rw [encodeElement_of_not_fits ⟨q, hq, hqout⟩] at h
    cases h
  rw [encodeElement_of_fits hfits] at h
  exact ⟨hfits, (Option.some.inj h).symm⟩

/-- The walk at the value of an element, whole and followed by the rest of the stream. -/
theorem decodeStream_value {p : Params} {k : LppKind} {value : List Byte} {rs : List Record}
    {rest : List Byte} (hcodes : p.lppCodes.distinct = true) (hlen : value.length = k.size)
    (hrest : decodeStream p rest = .ok rs) (ch : Byte) :
    decodeStream p (ch :: p.lppCodes.codeOf k :: (value ++ rest)) =
      .ok (⟨ch, p.lppCodes.codeOf k, decodeFields k.signed k.width k.fields (value ++ rest)⟩ :: rs) := by
  rw [decodeStream_element p ch _ _ k (LppCodes.kindOf_codeOf hcodes k) (by simp [hlen]),
    List.drop_left' hlen, hrest]

theorem length_flatMap_of_length {α : Type} {enc : α → List Byte} {w : Nat} {xs : List α}
    (h : ∀ x ∈ xs, (enc x).length = w) : (xs.flatMap enc).length = xs.length * w := by
  rw [List.length_flatMap, List.map_congr_left h, List.map_const', List.sum_replicate, smul_eq_mul]

/-- Settles O51, by induction on the stream: the walk takes the first element's value whole, its fields
decode to the integers they were made of, and the rest of the stream follows. -/
theorem codecRoundTrip : Obligations.CodecRoundTrip := by
  intro p els bytes hcodes hfields henc
  induction els generalizing bytes with
  | nil =>
    obtain rfl : bytes = [] := by simpa using henc.symm
    rfl
  | cons e els ih =>
    obtain ⟨k, ch, qs⟩ := e
    obtain ⟨hk, hfields⟩ := List.forall_mem_cons.1 hfields
    cases bytes with
    | nil => cases henc
    | cons el bytes =>
      obtain ⟨hel, hels⟩ := List.cons.inj henc
      obtain ⟨hfits, rfl⟩ := fits_of_encodeElement hel
      have hlen : (qs.flatMap (beInt k.width)).length = k.size := by
        rw [length_flatMap_of_length fun q _ => beInt_length k.width q, LppKind.size, ← hk]
      have hvalues := decodeFields_flatMap (dec := id) (fun q _ => beInt_length k.width q)
        (fun q hq => decodeField_beInt k.width_pos (hfits q hq)) bytes.flatten
      rw [List.flatten_cons, List.cons_append, List.cons_append,
        decodeStream_value hcodes hlen (ih bytes hfields hels) ch, ← hk, hvalues, List.map_id]
      rfl

/-! ## An element on its own (log entry 9) -/

/-- Sign extension reads a field as the signed integer of its width. -/
theorem sext_toNat {w : Nat} (v : BitVec w) : sext w v.toNat = v.toInt := by
  rw [sext, BitVec.toInt_eq_msb_cond, BitVec.msb_eq_decide]
  simp

theorem beInt_four_toInt {w : Nat} (h : w ≤ 32) (v : BitVec w) :
    beInt 4 v.toInt = wordBytes (v.signExtend 32) := by
  rw [wordBytes, ← beInt_toInt _ (by norm_num), BitVec.toInt_signExtend_of_le h]

theorem beInt_natCast (n x : Nat) : beInt n (x : Int) = beNat n x := by
  rw [beInt, ← Int.natCast_emod, Int.toNat_natCast, beNat_mod n _ n le_rfl]

/-- A field of one unsigned byte, in four. -/
theorem beInt_four_byte (v : Byte) : beInt 4 (v.toNat : Int) = [0, 0, 0, v] := by
  have hhigh (n : Nat) : BitVec.ofNat 8 (v.toNat / 256 ^ (n + 1)) = 0 := by
    rw [Nat.div_eq_of_lt (v.isLt.trans_le (Nat.le_self_pow n.succ_ne_zero 256))]
    rfl
  rw [beInt_natCast, beNat, beNat, beNat, hhigh 2, hhigh 1, hhigh 0]
  simp [beNat]

/-- The record of an element is what the decoder reads from the fields' bytes. -/
theorem elementRecord_values {k : LppKind} {raws : List Nat} (h : ∀ v ∈ raws, v < 256 ^ k.width) :
    decodeFields k.signed k.width raws.length (raws.flatMap (beNat k.width)) =
      raws.map fun v => if k.signed then sext (8 * k.width) v else (v : Int) := by
  have hdec : ∀ v ∈ raws, decodeField k.signed (beNat k.width v) =
      if k.signed then sext (8 * k.width) v else (v : Int) := by
    intro v hv
    rw [decodeField, beNat_length, unbe_beNat, Nat.mod_eq_of_lt (h v hv)]
  have := decodeFields_flatMap (fun v _ => beNat_length k.width v) hdec []
  rwa [List.append_nil] at this

end Sys2Proof

namespace Sys2Proof.Machine

open Sys2Proof

/-- What an element run on its own answers is what the walk makes of its bytes. -/
theorem decodeStream_elementRecord {p : Params} {k : LppKind} {raws : List Nat}
    (hcodes : p.lppCodes.distinct = true) (hk : raws.length = k.fields)
    (h : ∀ v ∈ raws, v < 256 ^ k.width) (ch : Byte) :
    decodeStream p (ch :: p.lppCodes.codeOf k :: raws.flatMap (beNat k.width)) =
      .ok [elementRecord p.lppCodes k ch raws] := by
  have hlen : (raws.flatMap (beNat k.width)).length = k.size := by
    rw [length_flatMap_of_length fun v _ => beNat_length k.width v, LppKind.size, hk]
  have hrest : decodeStream p [] = .ok [] := rfl
  have hwalk := decodeStream_value hcodes hlen hrest ch
  rwa [List.append_nil, ← hk, elementRecord_values h] at hwalk

/-- A payload element is a kind, a channel and the unsigned values of its fields: its bytes are written from
them, and its meaning answers the record made of them. -/
theorem exists_fields_of_element {codes : LppCodes} {i : Instr} {bytes : List Byte}
    (h : encode codes i = .element bytes) :
    ∃ (k : LppKind) (ch : Byte) (raws : List Nat), raws.length = k.fields ∧
      (∀ v ∈ raws, v < 256 ^ k.width) ∧
      bytes = ch :: codes.codeOf k :: raws.flatMap (beNat k.width) ∧
      ∀ s : State, exec i s = .next (s.decodedElement k ch raws) := by
  cases i with
  | lppDigitalInput ch v =>
    cases h
    have hv : [v] = beNat 1 v.toNat := by simp [beNat]
    exact ⟨.digitalInput, ch, [v.toNat], rfl, by simpa [LppKind.width] using v.isLt, by rw [hv]; rfl,
      fun _ => rfl⟩
  | lppAnalogInput ch v =>
    cases h
    exact ⟨.analogInput, ch, [v.toNat], rfl, by simpa [LppKind.width] using v.isLt, rfl, fun _ => rfl⟩
  | lppAccelerometer ch x y z =>
    cases h
    exact ⟨.accelerometer, ch, [x.toNat, y.toNat, z.toNat], rfl,
      by simpa [LppKind.width] using ⟨x.isLt, y.isLt, z.isLt⟩, rfl, fun _ => rfl⟩
  | lppGps ch lat lon alt =>
    cases h
    exact ⟨.gps, ch, [lat.toNat, lon.toNat, alt.toNat], rfl,
      by simpa [LppKind.width] using ⟨lat.isLt, lon.isLt, alt.isLt⟩, rfl, fun _ => rfl⟩
  | _ => cases h

/-- Settles O55: an element's bytes are its header and its fields' bytes, and the walk makes the record of
them that the element answers. -/
theorem elementsAgreeWithDecoder : Obligations.ElementsAgreeWithDecoder := by
  intro s i bytes hcodes henc
  obtain ⟨k, ch, raws, hk, hraws, rfl, hexec⟩ := exists_fields_of_element henc
  exact ⟨_, decodeStream_elementRecord hcodes hk hraws ch, hexec s⟩

/-- Settles O54: a field of a signed type is the signed integer of its width, whose four bytes are those of
its sign extension. -/
theorem elementsAnswerRecords : Obligations.ElementsAnswerRecords := by
  intro s ch
  have hfield (v : BitVec 16) : beInt 4 (sext 16 v.toNat) = wordBytes (v.signExtend 32) := by
    rw [sext_toNat, beInt_four_toInt (by norm_num)]
  have hfield' (v : BitVec 24) : beInt 4 (sext 24 v.toNat) = wordBytes (v.signExtend 32) := by
    rw [sext_toNat, beInt_four_toInt (by norm_num)]
  refine ⟨fun v => ?digital, fun v => ?analog, fun x y z => ?accel, fun lat lon alt => ?gps⟩
  case digital =>
    simp [exec, execLppDigitalInput, State.decodedElement, elementRecord, Record.bytes,
      beInt_four_byte, LppKind.signed, LppCodes.codeOf]
  case analog =>
    simp [exec, execLppAnalogInput, State.decodedElement, elementRecord, Record.bytes, hfield,
      LppKind.signed, LppKind.width, LppCodes.codeOf]
  case accel =>
    simp [exec, execLppAccelerometer, State.decodedElement, elementRecord, Record.bytes, hfield,
      LppKind.signed, LppKind.width, LppCodes.codeOf]
  case gps =>
    simp [exec, execLppGps, State.decodedElement, elementRecord, Record.bytes, hfield',
      LppKind.signed, LppKind.width, LppCodes.codeOf]

end Sys2Proof.Machine

namespace Sys2Proof

/-! ## The host's rounding (00_scope.md R10, 43_codec.md R262) -/

theorem rha_eq_floor (x : ℚ) : rha x = if 0 ≤ x then ⌊x + 1 / 2⌋ else -⌊-x + 1 / 2⌋ := rfl

/-- The rounding is within half a unit. -/
theorem abs_rha_sub_le (x : ℚ) : |(rha x : ℚ) - x| ≤ 1 / 2 := by
  have hlo (y : ℚ) : (⌊y + 1 / 2⌋ : ℚ) ≤ y + 1 / 2 := Int.floor_le _
  have hhi (y : ℚ) : y + 1 / 2 < ⌊y + 1 / 2⌋ + 1 := Int.lt_floor_add_one _
  rw [rha_eq_floor, abs_le]
  split
  · constructor <;> linarith [hlo x, hhi x]
  · push_cast
    constructor <;> linarith [hlo (-x), hhi (-x)]

/-- A tie goes away from zero. -/
theorem rha_add_half (n : Int) : rha ((n : ℚ) + 1 / 2) = if 0 ≤ n then n + 1 else n := by
  rw [rha_eq_floor]
  by_cases hn : 0 ≤ n
  · have hq : (0 : ℚ) ≤ n := by exact_mod_cast hn
    have hup : (n : ℚ) + 1 / 2 + 1 / 2 = ((n + 1 : Int) : ℚ) := by push_cast; ring
    rw [if_pos (by linarith), if_pos hn, hup, Int.floor_intCast]
  · have hq : (n : ℚ) ≤ -1 := by exact_mod_cast (by omega : n ≤ -1)
    have hup : -((n : ℚ) + 1 / 2) + 1 / 2 = ((-n : Int) : ℚ) := by push_cast; ring
    rw [if_neg (by linarith), if_neg hn, hup, Int.floor_intCast, neg_neg]

theorem s32Operand_of_carried {q : Int} (h : -(2 ^ 31) ≤ q ∧ q < 2 ^ 31) :
    s32Operand q = some (BitVec.ofInt 32 q) := if_pos h

/-- Settles O52: the rounding error is half a unit before it is divided by the scale, and a scaled value
that is an `s32` is the operand of its command. -/
theorem hostScaling : Obligations.HostScaling := by
  refine ⟨?error, rha_add_half, ?pseudo⟩
  case error =>
    intro x scale hscale
    have hpos : (0 : ℚ) < scale := by exact_mod_cast hscale
    calc |(rha (x * scale) : ℚ) / scale - x|
      _ = |((rha (x * scale) : ℚ) - x * scale) / scale| := by
        rw [sub_div, mul_div_cancel_right₀ x hpos.ne']
      _ = |(rha (x * scale) : ℚ) - x * scale| / scale := by rw [abs_div, abs_of_pos hpos]
      _ ≤ 1 / 2 / scale := by
        gcongr
        exact abs_rha_sub_le (x * scale)
      _ = 1 / (2 * scale) := by rw [div_div]
  case pseudo =>
    intro l ch
    refine ⟨fun v hv => ?_, fun x y z hx hy hz => ?_, fun lat lon alt hlat hlon halt => ?_, rfl, rfl,
      fun _ => rfl, rfl, rfl⟩
    · simp [Pseudo.expand, scaledOperand, s32Operand_of_carried hv]
    · simp [Pseudo.expand, scaledOperand, s32Operand_of_carried hx, s32Operand_of_carried hy,
        s32Operand_of_carried hz]
    · simp [Pseudo.expand, scaledOperand, s32Operand_of_carried hlat, s32Operand_of_carried hlon,
        s32Operand_of_carried halt]

end Sys2Proof
end

section
/-! The transport (40_transport_and_control.md): one transaction, the raw accesses, the status word, and a bus
frame run on its own. -/

namespace Sys2Proof.Machine

open Sys2Proof

/-! ## One transaction (section 1) -/

/-- Between commands no select is asserted, so a transaction leaves only what was observed and used. -/
theorem State.afterTxn_eq_of_released {s : State} (hradio : s.csRadio = false) (hcan : s.csCan = false)
    (dev : Device) (out : List Byte) : s.afterTxn dev out = { s with
      trace := s.trace ++ [.txn dev out (s.receivedAt 0 dev out)]
      replies := s.replies.tail
      draws := s.draws + 1 } := by
  cases dev <;>
    simp [State.afterTxn, State.setSelect, State.drewAnswer, State.logged, hradio, hcan]

/-- A given answer of the right length is taken as it is. -/
theorem shiftIn_of_length (draw : Nat) (ins : List Byte) (i : Nat) :
    shiftIn draw i ins.length ins = ins := by
  induction ins generalizing i with
  | nil => rfl
  | cons b bs ih => rw [List.length_cons, shiftIn, ih]

theorem State.receivedAt_of_fail {s : State} {as : List Answer} (h : s.replies = .fail :: as)
    (dev : Device) (out : List Byte) : s.receivedAt 0 dev out = none := by
  simp [State.receivedAt, State.answerAt, h]

theorem State.receivedAt_of_shift {s : State} {ins : List Byte} {as : List Answer}
    (h : s.replies = .shift ins :: as) (dev : Device) {out : List Byte}
    (hlen : ins.length = out.length) : s.receivedAt 0 dev out = some ins := by
  simp [State.receivedAt, State.answerAt, h, ← hlen, shiftIn_of_length]

/-- Settles O14: `txn` ends in the one state `afterTxn` either way, with the bytes shifted in or with
BUS_IO_ERROR. -/
theorem transactionEffect : Obligations.TransactionEffect := by
  intro s dev out hradio hcan
  refine ⟨?select, ?effect, fun _ h => State.receivedAt_of_fail h dev out,
    fun _ _ h => State.receivedAt_of_shift h dev⟩
  case select => cases dev <;> simp [hradio, hcan]
  case effect =>
    rintro t rfl
    rw [← State.afterTxn_eq_of_released hradio hcan]
    refine ⟨fun ins hins => ⟨State.receivedAt_length hins, ?_⟩, fun hnone => ?_⟩
    · simp [txn, hins]
    · exact txn_error (State.receivedAt_none.1 hnone)

/-! ## The raw accesses (section 2) -/

theorem rawDevice_ok {s : State} {dev addr : Byte} {d : Device} (hd : deviceOf dev = some d)
    (haddr : addr.toNat < 2 ^ s.params.addrBits d) : rawDevice dev addr s = .ok d s := by
  simp [rawDevice, hd, haddr]

theorem rawDevice_error {s : State} {dev addr : Byte} {d : Device} (hd : deviceOf dev = some d)
    (haddr : 2 ^ s.params.addrBits d ≤ addr.toNat) :
    rawDevice dev addr s = .error .addressRange s := by
  simp [rawDevice, hd, Nat.not_lt.2 haddr]

/-- The two legal `dev` operands, each with its device and the bits of its addresses. -/
theorem deviceOf_legal {p : Params} {dev : Byte} {d : Device} {bits : Nat}
    (h : (dev = 0 ∧ d = .radio ∧ bits = p.radioAddrBits) ∨ (dev = 1 ∧ d = .can ∧ bits = p.canAddrBits)) :
    deviceOf dev = some d ∧ bits = p.addrBits d := by
  obtain ⟨rfl, rfl, rfl⟩ | ⟨rfl, rfl, rfl⟩ := h <;> exact ⟨rfl, rfl⟩

/-- The write frames of the reference framing (30_encoding.md R110, R112). -/
theorem writeFrame_reference (d : Device) (addr v : Byte) : Framing.reference.writeFrame d addr v =
    match d with
    | .radio => [0x80 ||| (addr &&& 0x7F), v]
    | .can => [0x02, addr, v] := by
  have hkeep : addr &&& 0xFF#8 = addr := BitVec.and_allOnes
  cases d <;> simp [Framing.writeFrame, Framing.of, Framing.reference, FrameByte.byte, hkeep]

theorem readFrame_reference (d : Device) (addr : Byte) : Framing.reference.readFrame d addr =
    match d with
    | .radio => [addr &&& 0x7F, 0x00]
    | .can => [0x03, addr, 0x00] := by
  have hkeep : addr &&& 0xFF#8 = addr := BitVec.and_allOnes
  cases d <;> simp [Framing.readFrame, Framing.of, Framing.reference, FrameByte.byte, hkeep]

/-- Settles O24: the two checks pass or end the command, and the write is its one transaction. -/
theorem busWriteRule : Obligations.BusWriteRule := by
  intro s addr val
  refine ⟨fun _ => rfl, fun dev h0 h1 => ((reservedOperandsRefused s).1 dev addr val h0 h1).1, ?_⟩
  rintro dev d frame bits hdev rfl
  obtain ⟨hd, rfl⟩ := deviceOf_legal hdev
  refine ⟨fun href => ?_, fun hrange => ?_, fun hrange hanswer => ?_, fun hrange hfail => ?_⟩
  · rw [href]
    cases d <;> exact writeFrame_reference _ _ _
  · exact runCommand_bind_error (rawDevice_error hd hrange) _
  · exact (runCommand_bind_ok (rawDevice_ok hd hrange) _).trans
      (runCommand_bind_ok (busWrite_ok hanswer) _)
  · exact (runCommand_bind_ok (rawDevice_ok hd hrange) _).trans
      (runCommand_bind_error (busWrite_error hfail) _)

/-- The byte a read returns is the one shifted in at the framing's position. -/
theorem State.readAt_of_receivedAt {s : State} {d : Device} {addr : Byte} {ins : List Byte}
    (h : s.receivedAt 0 d (s.params.framing.readFrame d addr) = some ins) :
    s.readAt 0 d addr = ins.getD (s.params.framing.readPosition d) 0 := by
  rw [State.readAt, h, Option.getD_some]

/-- Settles O25: the two checks pass or end the command, and the read is its one transaction, whose value is
the byte at the framing's position. -/
theorem busReadRule : Obligations.BusReadRule := by
  intro s addr
  refine ⟨fun _ => rfl, fun dev h0 h1 => ((reservedOperandsRefused s).1 dev addr 0 h0 h1).2, ?_⟩
  rintro dev d frame bits position hdev rfl rfl
  obtain ⟨hd, rfl⟩ := deviceOf_legal hdev
  refine ⟨fun href => ?_, fun hrange => ?_, fun ins hrange hpos hins => ?_, fun hrange hfail => ?_⟩
  · rw [href]
    cases d <;> exact Prod.ext (readFrame_reference _ _) rfl
  · exact runCommand_bind_error (rawDevice_error hd hrange) _
  · rw [← State.receivedAt_length hins] at hpos
    have hanswer : s.answerAt 0 d (s.params.framing.readFrame d addr) ≠ .fail := by
      rw [Ne, ← State.receivedAt_none, hins]
      exact Option.some_ne_none ins
    refine ⟨ins.getD (s.params.framing.readPosition d) 0, ?_, ?_⟩
    · simp [hpos]
    · rw [← State.readAt_of_receivedAt hins]
      exact (runCommand_bind_ok (rawDevice_ok hd hrange) _).trans
        (runCommand_bind_ok (busRead_ok hanswer) _)
  · rw [State.receivedAt_none] at hfail
    exact (runCommand_bind_ok (rawDevice_ok hd hrange) _).trans
      (runCommand_bind_error (busRead_error hfail) _)

/-! ## The status word (10_state.md R23) -/

theorem getLsbD_of_extractLsb'_one {w : Nat} {x : BitVec w} {k : Nat} {b : Bool}
    (h : x.extractLsb' k 1 = BitVec.ofBool b) : x.getLsbD k = b := by
  simpa using congrArg (BitVec.getLsbD · 0) h

/-- Settles O27: each field is the part of the concatenation that stands at its bits. -/
theorem statusWordFields : Obligations.StatusWordFields := by
  intro s
  have hbit {k : Nat} {b : Bool} := getLsbD_of_extractLsb'_one (x := s.status) (k := k) (b := b)
  have hencBuf : s.status.extractLsb' 24 8 = BitVec.ofNat 8 s.encBuf.length := by
    simp (disch := omega) only [State.status, BitVec.extractLsb'_append_eq_of_le]
    exact BitVec.extractLsb'_eq_self
  refine ⟨?radioState, ?radioLife, ?canLife, ?canMode, hbit ?hazard, hbit ?canExt, hbit ?hasReset,
    hbit ?hasLed, hbit ?hasInt, ?reserved, ?lastStatus, fun hlen => ?encLen⟩
  case encLen => rw [hencBuf, BitVec.toNat_ofNat, Nat.mod_eq_of_lt hlen]
  all_goals
    simp (disch := omega) only [State.status, BitVec.extractLsb'_append_eq_of_le,
      BitVec.extractLsb'_append_eq_of_add_le]
    exact BitVec.extractLsb'_eq_self

/-! ## Bus frames run on their own (log entry 8) -/

theorem radioWriteByte_eq_append (addr : BitVec 7) :
    (0x80 ||| (addr.setWidth 8 &&& 0x7F) : Byte) = 1#1 ++ addr := by
  revert addr
  decide

theorem radioReadByte_eq_append (addr : BitVec 7) : (addr.setWidth 8 &&& 0x7F : Byte) = 0#1 ++ addr := by
  revert addr
  decide

theorem rtsByte_eq_append (mask : BitVec 3) :
    (0x80 ||| mask.setWidth 8 : Byte) = 0b10000#5 ++ mask := by
  revert mask
  decide

/-- Settles O53: the reference framing's frames, and the request-to-send byte. -/
theorem busFramesTransact : Obligations.BusFramesTransact := by
  intro s
  refine ⟨fun addr val => ?_, fun addr => ?_, fun addr val => ?_, fun addr => ?_, rfl, fun mask => ?_⟩
  · rw [exec, execBusframeRadioWrite, writeFrame_reference, radioWriteByte_eq_append]
  · rw [exec, execBusframeRadioRead, readFrame_reference, radioReadByte_eq_append]
  · rw [exec, execBusframeCanWrite, writeFrame_reference]
  · rw [exec, execBusframeCanRead, readFrame_reference]
  · rw [exec, execBusframeCanRts, rtsByte_eq_append]

end Sys2Proof.Machine
end

section
/-! The radio's commands where no transaction fails (41_radio.md section 5): each is its checks, its
transactions in order, its record updates and its bookkeeping. -/

namespace Sys2Proof.Machine

open Sys2Proof

/-! ## A state some transactions later

The statements name every transaction and every value read by its index from the state a command begins
in. -/

/-- `t` is `s` after `n` transactions: the parameters are the same and the answers are `n` further on. -/
structure State.Later (s t : State) (n : Nat) : Prop where
  params : t.params = s.params
  draws : t.draws = s.draws + n
  answerAt : ∀ k d out, t.answerAt k d out = s.answerAt (k + n) d out

namespace State.Later

variable {s t : State} {n : Nat}

theorem refl (s : State) : s.Later s 0 := ⟨rfl, rfl, fun _ _ _ => rfl⟩

theorem readAt (h : s.Later t n) (k : Nat) (d : Device) (a : Byte) :
    t.readAt k d a = s.readAt (k + n) d a :=
  State.readAt_of (h.answerAt k) (by rw [h.draws]; omega) h.params d a

theorem radioAt (h : s.Later t n) (k : Nat) (reg : RadioMap → Byte) :
    t.radioAt k reg = s.radioAt (k + n) reg := by
  rw [State.radioAt, State.radioAt, h.params, h.readAt]

theorem ahead (h : s.Later t n) : s.ahead t n := ⟨h.params, h.readAt⟩

theorem answers (h : s.Later t n) {m : Nat} (ha : s.answers (n + m)) : t.answers m := by
  intro k hk d out
  rw [h.answerAt]
  exact ha (k + n) (by omega) d out

theorem transacted (h : s.Later t n) (ts : List (Device × List Byte)) {m : Nat}
    (hm : n + ts.length = m) : s.Later (t.transacted ts) m where
  params := by rw [State.transacted_params, h.params]
  draws := by rw [State.transacted_draws, h.draws, ← hm, Nat.add_assoc]
  answerAt k d out := by
    rw [State.transacted_answerAt, h.answerAt, ← hm, Nat.add_assoc, Nat.add_comm ts.length]

theorem setRadioState (h : s.Later t n) (m : RadioState) : s.Later (t.setRadioState m) n where
  params := h.params
  draws := h.draws
  answerAt k d out := by rw [← h.answerAt, State.setRadioState_answerAt]

theorem hazardChecked (s : State) : s.Later s.hazardChecked 0 where
  params := State.hazardChecked_params s
  draws := State.hazardChecked_draws s
  answerAt k d out := State.hazardChecked_answerAt s k d out

theorem pulsed (s : State) : s.Later s.pulsed 0 where
  params := State.pulsed_params s
  draws := State.pulsed_draws s
  answerAt k d out := State.pulsed_answerAt s k d out

theorem polled (h : s.Later t n) (w : Wait) (delay m : Nat) {k : Nat} (hk : n + m = k) :
    s.Later (State.polled w delay m t) k where
  params := by rw [State.polled_params, h.params]
  draws := by rw [State.polled_draws, h.draws, ← hk, Nat.add_assoc]
  answerAt j d out := by
    rw [State.polled_answerAt, h.answerAt, ← hk, Nat.add_assoc, Nat.add_comm m]

/-! The radio's sequences from such a state make the transactions that are named from the first one. -/

theorem radioWrite (h : s.Later t n) (ha : s.answers (n + 1)) (reg : RadioMap → Byte) (v : Byte) :
    radioWrite reg v t = .ok () (t.transacted [s.wrRadio reg v]) := by
  rw [radioWrite_ok (h.answers ha 0 Nat.one_pos _ _), State.wrRadio, ← h.params]
  rfl

theorem radioRead (h : s.Later t n) (ha : s.answers (n + 1)) (reg : RadioMap → Byte) :
    radioRead reg t = .ok (s.radioAt n reg) (t.transacted [s.rdRadio reg]) := by
  rw [radioRead_ok (h.answers ha 0 Nat.one_pos _ _), h.readAt, Nat.zero_add, State.rdRadio,
    State.radioAt, ← h.params]
  rfl

theorem setMode (h : s.Later t n) (ha : s.answers (n + 1)) (m : RadioState) :
    setMode m t = .ok () ((t.transacted [s.wrMode m]).setRadioState m) := by
  rw [setMode_ok (h.answers ha 0 Nat.one_pos _ _), State.wrMode_congr h.params]

theorem setFrequency (h : s.Later t n) (ha : s.answers (n + 3)) (f : Nat) :
    setFrequency f t = .ok () (t.transacted (s.frequencyTxns f)) := by
  rw [setFrequency_ok (h.answers ha), State.frequencyTxns_congr h.params]

theorem setBandwidth (h : s.Later t n) (ha : s.answers (n + 2)) (bw : Nat) :
    setBandwidth bw t = .ok () (t.transacted (s.bandwidthTxns n bw)) := by
  rw [setBandwidth_ok (h.answers ha), State.bandwidthTxns_ahead h.ahead, Nat.zero_add]

theorem setLnaAgc (h : s.Later t n) (ha : s.answers (n + 3)) :
    setLnaAgc t = .ok () (t.transacted (s.lnaAgcTxns n)) := by
  rw [setLnaAgc_ok (h.answers ha), State.lnaAgcTxns_ahead h.ahead, Nat.zero_add]

theorem setTxPower (h : s.Later t n) (ha : s.answers (n + 1)) (p : Int) :
    setTxPower p t = .ok () (t.transacted (s.txPowerTxns p)) := by
  rw [setTxPower_ok (h.answers ha), State.txPowerTxns_congr h.params]

theorem setSpreadingFactor (h : s.Later t n) (ha : s.answers (n + 4)) (sf : Int) :
    setSpreadingFactor sf t = .ok () (t.transacted (s.spreadingFactorTxns n sf)) := by
  rw [setSpreadingFactor_ok (h.answers ha), State.spreadingFactorTxns_ahead h.ahead, Nat.zero_add]

theorem setCodingRate (h : s.Later t n) (ha : s.answers (n + 2)) (c : Int) :
    setCodingRate c t = .ok () (t.transacted (s.codingRateTxns n c)) := by
  rw [setCodingRate_ok (h.answers ha), State.codingRateTxns_ahead h.ahead, Nat.zero_add]

theorem setPreamble (h : s.Later t n) (ha : s.answers (n + 2)) (m : Nat) :
    setPreamble m t = .ok () (t.transacted (s.preambleTxns m)) := by
  rw [setPreamble_ok (h.answers ha), State.preambleTxns_congr h.params]

theorem setSyncWord (h : s.Later t n) (ha : s.answers (n + 1)) (w : Byte) :
    setSyncWord w t = .ok () (t.transacted [s.wrRadio RadioMap.syncWord w]) :=
  h.radioWrite ha _ w

theorem setCrc (h : s.Later t n) (ha : s.answers (n + 2)) {crc : Byte} (hcrc : crc = 0 ∨ crc = 1) :
    setCrc (flagValue crc) t = .ok () (t.transacted (s.crcTxns n crc)) := by
  rw [setCrc_ok hcrc (h.answers ha), State.crcTxns_ahead h.ahead, Nat.zero_add]

theorem packetLength (h : s.Later t n) (k : Nat) : t.packetLength k = s.packetLength (k + n) :=
  h.radioAt k _

theorem packetBytes (h : s.Later t n) (k : Nat) : t.packetBytes k = s.packetBytes (k + n) := by
  rw [State.packetBytes, State.packetBytes, h.packetLength]
  refine List.map_congr_left fun j _ => ?_
  rw [h.radioAt]
  congr 1
  omega

theorem packetTxns (h : s.Later t n) (k : Nat) : t.packetTxns k = s.packetTxns (k + n) := by
  rw [State.packetTxns, State.packetTxns, h.packetLength, h.radioAt, State.wrRadio_congr h.params,
    State.rdRadio_congr h.params, Nat.add_right_comm]

theorem readPacket (h : s.Later t n) (ha : s.answers (n + (3 + (s.packetLength n).toNat))) :
    readPacket t = .ok (s.packetLength n, s.packetBytes n) (t.transacted (s.packetTxns n)) := by
  have hlen : t.packetLength 0 = s.packetLength n := by rw [h.packetLength, Nat.zero_add]
  rw [readPacket_ok (by rw [hlen]; exact h.answers ha), hlen, h.packetBytes, h.packetTxns, Nat.zero_add]

end State.Later

/-- The record of the mode and the transactions do not meet. -/
theorem State.setRadioState_transacted (s : State) (m : RadioState) (ts : List (Device × List Byte)) :
    (s.setRadioState m).transacted ts = (s.transacted ts).setRadioState m := by
  induction ts generalizing s with
  | nil => rfl
  | cons t ts ih =>
    rw [State.transacted_cons, State.setRadioState_afterTxn, ih, State.transacted_cons]

/-! ## Length checks (60_exceptions.md R302) -/

/-- Settles O21: the length is checked before the gate, and after the identifier's own check. -/
theorem lengthErrors : Obligations.LengthErrors := by
  intro s
  refine ⟨fun payload hlen => ?_, fun id data hid hlen => ?_⟩
  · exact runCommand_params_require_error
      (c := fun p => decide (0 < payload.length ∧ payload.length ≤ p.maxPayload))
      (decide_eq_false (by omega)) _ _
  · exact (runCommand_params_require_ok (c := fun p => canIdLegal p.canIdMode id) hid _ _).trans
      (runCommand_require_error (decide_eq_false (by omega)) _ _ s)

/-! ## The commands that write one mode (R175, R176) -/

/-- A mode command: its gate, its write from any recorded mode, the record kept if the write fails. -/
theorem modeCommand_rule (m : RadioState) (s : State) :
    let run := runCommand (do radioGate; setMode m; done) s
    (s.radioLife = .failed → run = .next (s.ended .deviceNotFound [])) ∧
    (s.radioLife = .uninit → run = .next (s.ended .notInitialized [])) ∧
    (s.radioLife = .ready →
      let w := s.wrMode m
      (s.answerAt 0 w.1 w.2 ≠ .fail → run = .next (((s.transacted [w]).setRadioState m).ended .ok [])) ∧
      (s.answerAt 0 w.1 w.2 = .fail → run = .next ((s.transacted [w]).ended .busIoError []))) := by
  refine ⟨fun h => runCommand_bind_error (radioGate_failed h) _,
    fun h => runCommand_bind_error (radioGate_uninit h) _, fun h => ⟨fun hok => ?_, fun hfail => ?_⟩⟩
  · exact (runCommand_bind_ok (radioGate_ready h) _).trans (runCommand_bind_ok (setMode_ok hok) _)
  · exact (runCommand_bind_ok (radioGate_ready h) _).trans
      (runCommand_bind_error (setMode_error hfail) _)

/-- Settles O34. -/
theorem sleepRule : Obligations.SleepRule := ⟨rfl, modeCommand_rule .sleep⟩

/-- Settles O35. -/
theorem standbyRule : Obligations.StandbyRule := ⟨rfl, modeCommand_rule .standby⟩

/-! ## The settings (R177 to R185) -/

/-- A setting on a Ready radio whose sequence makes the transactions `ts`. -/
theorem runCommand_configure_ok {sequence : Act Unit} {s : State} {ts : List (Device × List Byte)}
    (hlife : s.radioLife = .ready)
    (hseq : sequence s.hazardChecked = .ok () (s.hazardChecked.transacted ts)) :
    runCommand (configure sequence) s = .next ((s.hazardChecked.transacted ts).ended .ok []) :=
  calc runCommand (configure sequence) s
    _ = runCommand (sequence >>= fun _ => done) s.hazardChecked :=
      (runCommand_bind_ok (radioGate_ready hlife) _).trans
        (runCommand_bind_ok (hazardCheck_apply s) _)
    _ = _ := runCommand_bind_ok hseq _

/-- Settles O36. -/
theorem plainSettingsComplete : Obligations.PlainSettingsComplete := by
  intro s hlife
  have h := State.Later.hazardChecked s
  refine ⟨fun freq ha => ?_, fun txpow ha => ?_, fun preamble ha => ?_, fun sync ha => ?_⟩
  · exact runCommand_configure_ok hlife (h.setFrequency ha freq.toNat)
  · exact runCommand_configure_ok hlife (h.setTxPower ha txpow.toInt)
  · exact runCommand_configure_ok hlife (h.setPreamble ha preamble.toNat)
  · exact runCommand_configure_ok hlife (h.setSyncWord ha sync)

/-- Settles O37. -/
theorem fieldSettingsComplete : Obligations.FieldSettingsComplete := by
  intro s hlife
  have h := State.Later.hazardChecked s
  refine ⟨fun bw ha => ?_, fun ha => ?_, fun sf ha => ?_, fun cr ha => ?_, fun crc hcrc ha => ?_⟩
  · exact runCommand_configure_ok hlife (h.setBandwidth ha bw.toNat)
  · exact runCommand_configure_ok hlife (h.setLnaAgc ha)
  · exact runCommand_configure_ok hlife (h.setSpreadingFactor ha sf.toInt)
  · exact runCommand_configure_ok hlife (h.setCodingRate ha cr.toInt)
  · exact (exec_radioSetCrc hcrc s).trans (runCommand_configure_ok hlife (h.setCrc ha hcrc))

end Sys2Proof.Machine
end

section
/-! The radio's commands that run several sequences (41_radio.md R170 to R174), where no transaction fails. -/

namespace Sys2Proof.Machine

open Sys2Proof

@[simp] theorem State.setRadioState_setRadioState (s : State) (m m' : RadioState) :
    (s.setRadioState m).setRadioState m' = s.setRadioState m' := rfl

theorem runCommand_done (s : State) : runCommand done s = .next (s.ended .ok []) := rfl

theorem runCommand_doneWith (st : Status) (s : State) :
    runCommand (doneWith st) s = .next (s.ended st []) := rfl

theorem runCommand_doneData (data : List Byte) (s : State) :
    runCommand (doneData data) s = .next (s.ended .ok data) := rfl

/-! ## RADIO_INIT (R170) -/

theorem State.Later.checkIdentity_ok {s t : State} {n : Nat} (h : s.Later t n)
    (ha : s.answers (n + 1)) (hid : s.radioAt n RadioMap.version = s.params.radioIdValue) :
    checkIdentity t = .ok () (t.transacted [s.rdRadio RadioMap.version]) := by
  simp [checkIdentity, h.radioRead ha, h.params, hid]

theorem State.Later.checkIdentity_error {s t : State} {n : Nat} (h : s.Later t n)
    (ha : s.answers (n + 1)) (hid : s.radioAt n RadioMap.version ≠ s.params.radioIdValue) :
    checkIdentity t = .error .deviceNotFound
      ((t.transacted [s.rdRadio RadioMap.version]).setRadioLife .failed) := by
  simp [checkIdentity, h.radioRead ha, h.params, hid]

/-- `RADIO_INIT` up to its identity check: the operand and the lifecycle are as they must be, and the pulse
cannot fail. -/
theorem exec_radioInit_pulsed {s : State} {crc : Byte} (hcrc : crc = 0 ∨ crc = 1)
    (hlife : s.radioLife ≠ .failed) (freq bw sf cr preamble : Word) (sync : Byte) (txpow : Word) :
    exec (.radioInit freq bw sf cr preamble sync txpow crc) s =
      runCommand (do
        checkIdentity
        setMode .sleep
        setFrequency freq.toNat
        setBandwidth bw.toNat
        setLnaAgc
        setTxPower txpow.toInt
        setSpreadingFactor sf.toInt
        setCodingRate cr.toInt
        setPreamble preamble.toNat
        setSyncWord sync
        setCrc (flagValue crc)
        setMode .standby
        update (State.setRadioLife · .ready)
        done) s.pulsed :=
  (runCommand_bind_ok (require_ok (flagLegal_of hcrc) _ s) _).trans <|
    (runCommand_bind_ok (notFailed_ok hlife) _).trans (runCommand_bind_ok (pulseReset_apply s) _)

/-- Settles O29. -/
theorem radioInitIdentityMismatch : Obligations.RadioInitIdentityMismatch := by
  intro s freq bw sf cr preamble sync txpow crc hcrc hlife ha hid
  rw [exec_radioInit_pulsed hcrc hlife]
  exact runCommand_bind_error ((State.Later.pulsed s).checkIdentity_error ha hid) _

/-- A sequence that adds the transactions `ts` to those made so far. -/
theorem runCommand_bind_transacted {α : Type} {x : Act α} {a : α} {u : State}
    {made ts : List (Device × List Byte)}
    (h : x (u.transacted made) = .ok a ((u.transacted made).transacted ts))
    (k : α → Act (Status × List Byte)) :
    runCommand (x >>= k) (u.transacted made) = runCommand (k a) (u.transacted (made ++ ts)) := by
  rw [runCommand_bind_ok h, State.transacted_append]

/-- A mode write after the transactions made so far. -/
theorem State.Later.setMode_append {s u : State} {made : List (Device × List Byte)} {n : Nat}
    (h : s.Later (u.transacted made) n) (ha : s.answers (n + 1)) (m : RadioState) :
    Machine.setMode m (u.transacted made) =
      .ok () ((u.transacted (made ++ [s.wrMode m])).setRadioState m) := by
  rw [h.setMode ha, State.transacted_append]

/-- Settles O28: each sequence makes its transactions from where the one before it ended, and the mode
record is written by the two mode writes alone. -/
theorem radioInitCompletes : Obligations.RadioInitCompletes := by
  intro s freq bw sf cr preamble sync txpow crc hcrc hlife ha hid
  have hn (n : Nat) (h : n ≤ 23) : s.answers n := State.answers_mono ha h
  have h0 := State.Later.pulsed s
  have h1 : s.Later _ 1 := h0.transacted [s.rdRadio RadioMap.version] rfl
  have hmade {made : List (Device × List Byte)} {n : Nat} (h : 0 + made.length = n) :
      s.Later ((s.pulsed.setRadioState .sleep).transacted made) n :=
    (h0.setRadioState .sleep).transacted made h
  rw [exec_radioInit_pulsed hcrc hlife,
    runCommand_bind_ok (h0.checkIdentity_ok (hn 1 (by omega)) hid),
    runCommand_bind_ok (h1.setMode (hn 2 (by omega)) .sleep),
    ← State.transacted_append, ← State.setRadioState_transacted,
    runCommand_bind_transacted ((hmade rfl).setFrequency (n := 2) (hn 5 (by omega)) freq.toNat),
    runCommand_bind_transacted ((hmade rfl).setBandwidth (n := 5) (hn 7 (by omega)) bw.toNat),
    runCommand_bind_transacted ((hmade rfl).setLnaAgc (n := 7) (hn 10 (by omega))),
    runCommand_bind_transacted ((hmade rfl).setTxPower (n := 10) (hn 11 (by omega)) txpow.toInt),
    runCommand_bind_transacted
      ((hmade rfl).setSpreadingFactor (n := 11) (hn 15 (by omega)) sf.toInt),
    runCommand_bind_transacted ((hmade rfl).setCodingRate (n := 15) (hn 17 (by omega)) cr.toInt),
    runCommand_bind_transacted ((hmade rfl).setPreamble (n := 17) (hn 19 (by omega)) preamble.toNat),
    runCommand_bind_transacted ((hmade rfl).setSyncWord (n := 19) (hn 20 (by omega)) sync),
    runCommand_bind_transacted ((hmade rfl).setCrc (n := 20) (hn 22 (by omega)) hcrc),
    runCommand_bind_ok ((hmade rfl).setMode_append (n := 22) (hn 23 (by omega)) .standby),
    runCommand_bind_ok (update_apply _ _), State.setRadioState_transacted,
    State.setRadioState_setRadioState, List.singleton_append, runCommand_done]

/-! ## RADIO_TRANSMIT (R171) -/

/-- The state in which `RADIO_TRANSMIT` begins to poll: the FIFO pointer, the payload, its length and the
mode are written. -/
def State.transmitSent (s : State) (payload : List Byte) : State :=
  (s.transacted (s.wrRadio RadioMap.fifoAddrPtr s.params.fifoBase ::
    payload.map (s.wrRadio RadioMap.fifo) ++
    [s.wrRadio RadioMap.payloadLength (BitVec.ofNat 8 payload.length),
      s.wrMode .transmitting])).setRadioState .transmitting

theorem State.later_transmitSent (s : State) (payload : List Byte) :
    s.Later (s.transmitSent payload) (payload.length + 3) :=
  ((State.Later.refl s).transacted _ (by simp)).setRadioState .transmitting

theorem State.Later.resetFifoTx {s t : State} {n : Nat} (h : s.Later t n) (ha : s.answers (n + 1)) :
    resetFifoTx t = .ok () (t.transacted [s.wrRadio RadioMap.fifoAddrPtr s.params.fifoBase]) := by
  rw [Machine.resetFifoTx, act_bind, params_apply, h.params]
  exact h.radioWrite ha _ _

theorem State.Later.writeFifo {s t : State} {n : Nat} (h : s.Later t n) {bs : List Byte}
    (ha : s.answers (n + bs.length)) :
    writeFifo bs t = .ok () (t.transacted (bs.map (s.wrRadio RadioMap.fifo))) := by
  rw [writeFifo_ok (h.answers ha), State.wrRadio_congr h.params]

/-- `RADIO_TRANSMIT` from Standby, up to its poll loop. -/
theorem exec_radioTransmit_sent {s : State} {payload : List Byte} (hpos : 0 < payload.length)
    (hmax : payload.length ≤ s.params.maxPayload) (hlife : s.radioLife = .ready)
    (hstate : s.radioState = .standby) (ha : s.answers (payload.length + 3)) :
    exec (.radioTransmit payload) s =
      runCommand (do
        let seen ← pollTxDone s.params.txPollBudget
        radioWrite RadioMap.irqFlags s.params.radio.layout.clearTxDone
        if seen then do
          update (State.setRadioState · .standby)
          done
        else do
          setMode .standby
          doneWith .timeout) (s.transmitSent payload) := by
  have h0 := State.Later.refl s
  have hn (n : Nat) (h : n ≤ payload.length + 3) : s.answers n := State.answers_mono ha h
  have hmade {made : List (Device × List Byte)} {n : Nat} (h : 0 + made.length = n) :
      s.Later (s.transacted made) n := h0.transacted made h
  have hchecked : exec (.radioTransmit payload) s = _ :=
    (runCommand_params_require_ok
      (c := fun p => decide (0 < payload.length ∧ payload.length ≤ p.maxPayload))
      (decide_eq_true ⟨hpos, hmax⟩) _ _).trans <|
    (runCommand_bind_ok (radioGate_ready hlife) _).trans
      (runCommand_bind_ok (requireRadioState_ok hstate) _)
  rw [hchecked, runCommand_bind_ok (h0.resetFifoTx (hn 1 (by omega))),
    runCommand_bind_transacted ((hmade rfl).writeFifo (n := 1) (hn _ (by omega))),
    runCommand_bind_transacted ((hmade (n := payload.length + 1) (by simp)).radioWrite
      (hn _ (by omega)) _ _),
    runCommand_bind_ok ((hmade (n := payload.length + 2) (by simp)).setMode_append
      (hn _ (by omega)) _), State.transmitSent, List.append_assoc,
    List.append_assoc]
  rfl

theorem State.Later.pollTxDone_seen {s t : State} {n k m : Nat} (h : s.Later t n) (hk : k < m)
    (hbefore : ∀ j, j < k →
      txDone s.params.radio.layout (s.radioAt (n + j) RadioMap.irqFlags) = false)
    (hat : txDone s.params.radio.layout (s.radioAt (n + k) RadioMap.irqFlags) = true)
    (ha : s.answers (n + (k + 1))) :
    pollTxDone m t = .ok true (State.polled .txPoll s.params.txPollDelay (k + 1) t) := by
  have hflags (j : Nat) : t.radioAt j RadioMap.irqFlags = s.radioAt (n + j) RadioMap.irqFlags := by
    rw [h.radioAt, Nat.add_comm]
  rw [Machine.pollTxDone_seen hk (fun j hj => by rw [hflags, h.params, hbefore j hj])
    (by rw [hflags, h.params, hat]) (h.answers ha), h.params]

theorem State.Later.pollTxDone_none {s t : State} {n m : Nat} (h : s.Later t n)
    (hnever : ∀ j, j < m →
      txDone s.params.radio.layout (s.radioAt (n + j) RadioMap.irqFlags) = false)
    (ha : s.answers (n + m)) :
    pollTxDone m t = .ok false (State.polled .txPoll s.params.txPollDelay m t) := by
  rw [Machine.pollTxDone_none (fun j hj => by rw [h.radioAt, h.params, Nat.add_comm, hnever j hj])
    (h.answers ha), h.params]

/-- Settles O30: the poll loop ends at the first read with TxDone, or after the whole budget. -/
theorem transmitCompletes : Obligations.TransmitCompletes := by
  intro s payload hpos hmax hlife hstate n sent l seen
  have hsent : s.Later sent n := s.later_transmitSent payload
  refine ⟨fun k hk hbefore hat ha => ?_, fun hnever ha => ?_⟩
  · have hn (m : Nat) (h : m ≤ n + k + 2) : s.answers m := State.answers_mono ha h
    have hpolled := hsent.polled .txPoll s.params.txPollDelay (k + 1) rfl
    exact (exec_radioTransmit_sent hpos hmax hlife hstate (hn _ (by omega))).trans <|
      (runCommand_bind_ok (hsent.pollTxDone_seen hk hbefore hat (hn _ (by omega))) _).trans
        (runCommand_bind_ok (hpolled.radioWrite (hn _ (by omega)) _ _) _)
  · have hn (m : Nat) (h : m ≤ n + s.params.txPollBudget + 2) : s.answers m := State.answers_mono ha h
    have hpolled := hsent.polled .txPoll s.params.txPollDelay s.params.txPollBudget rfl
    have hcleared : s.Later _ (n + s.params.txPollBudget + 1) :=
      hpolled.transacted [s.wrRadio RadioMap.irqFlags l.clearTxDone] rfl
    exact (exec_radioTransmit_sent hpos hmax hlife hstate (hn _ (by omega))).trans <|
      (runCommand_bind_ok (hsent.pollTxDone_none hnever (hn _ (by omega))) _).trans <|
      (runCommand_bind_ok (hpolled.radioWrite (hn _ (by omega)) _ _) _).trans
        (runCommand_bind_ok (hcleared.setMode_append (hn _ (by omega)) _) _)

/-! ## Receiving (R172 to R174) -/

theorem State.Later.resetFifoRx {s t : State} {n : Nat} (h : s.Later t n) (ha : s.answers (n + 2)) :
    resetFifoRx t = .ok () (t.transacted [s.wrRadio RadioMap.fifoRxBaseAddr s.params.fifoBase,
      s.wrRadio RadioMap.fifoAddrPtr s.params.fifoBase]) := by
  have h1 : s.Later _ (n + 1) :=
    h.transacted [s.wrRadio RadioMap.fifoRxBaseAddr s.params.fifoBase] rfl
  simp only [Machine.resetFifoRx, act_bind, params_apply, h.params]
  rw [h.radioWrite (State.answers_mono ha (by omega))]
  simp only
  rw [h1.radioWrite ha, ← State.transacted_append, List.singleton_append]

theorem State.Later.restartRx {s t : State} {n : Nat} (h : s.Later t n) (ha : s.answers (n + 3)) :
    restartRx t = .ok () ((t.transacted s.startRxTxns).setRadioState .receivingContinuous) := by
  rw [restartRx_ok (h.answers ha), State.startRxTxns_congr h.params]

/-- The state in which continuous receive has been entered. -/
def State.rxStarted (s : State) : State :=
  (s.transacted s.startRxTxns).setRadioState .receivingContinuous

theorem State.later_rxStarted (s : State) : s.Later s.rxStarted 3 :=
  ((State.Later.refl s).transacted s.startRxTxns rfl).setRadioState _

/-- What `RADIO_START_RX` and `RADIO_BLOCKING_RX` begin with (R172, R174). -/
theorem runCommand_startRx {s : State} (hlife : s.radioLife = .ready) (hstate : s.radioState = .standby)
    (ha : s.answers 3) (k : Unit → Act (Status × List Byte)) :
    runCommand (do radioGate; requireRadioState .standby; resetFifoRx; setMode .receivingContinuous >>= k) s =
      runCommand (k ()) s.rxStarted := by
  have h0 := State.Later.refl s
  have h2 : s.Later _ 2 := h0.transacted [s.wrRadio RadioMap.fifoRxBaseAddr s.params.fifoBase,
      s.wrRadio RadioMap.fifoAddrPtr s.params.fifoBase] rfl
  exact (runCommand_bind_ok (radioGate_ready hlife) _).trans <|
    (runCommand_bind_ok (requireRadioState_ok hstate) _).trans <|
    (runCommand_bind_ok (h0.resetFifoRx (State.answers_mono ha (by omega))) _).trans
      (runCommand_bind_ok (h2.setMode_append ha _) k)

/-- Settles O31. -/
theorem startRxCompletes : Obligations.StartRxCompletes :=
  fun _ hlife hstate ha => runCommand_startRx hlife hstate ha fun _ => done

theorem State.setRadioState_self {s : State} {m : RadioState} (h : s.radioState = m) :
    s.setRadioState m = s := by
  subst h
  rfl

theorem beInt_one_sext (v : Byte) : beInt 1 (sext 8 v.toNat) = [v] := by
  rw [sext_toNat, beInt_toInt _ (by norm_num)]
  simp [beNat]

/-- Reception is restarted while receiving: the record of the mode stays. -/
theorem State.Later.restartRx_receiving {s u : State} {made : List (Device × List Byte)} {n : Nat}
    (h : s.Later (u.transacted made) n) (ha : s.answers (n + 3))
    (hstate : u.radioState = .receivingContinuous) :
    Machine.restartRx (u.transacted made) = .ok () (u.transacted (made ++ s.startRxTxns)) := by
  rw [h.restartRx ha, ← State.transacted_append,
    State.setRadioState_self (by rw [State.transacted_radioState, hstate])]

/-- Settles O32: the flag image read first decides between the three outcomes, and is the one written
back. -/
theorem pollRxCompletes : Obligations.PollRxCompletes := by
  intro s hlife hstate f l
  have h0 := State.Later.refl s
  have hmade {made : List (Device × List Byte)} {n : Nat} (h : 0 + made.length = n) :
      s.Later (s.transacted made) n := h0.transacted made h
  have hread (ha : s.answers 1) := calc exec .radioPollRx s
    _ = _ := runCommand_bind_ok (radioGate_ready hlife) _
    _ = _ := runCommand_bind_ok (requireRadioState_ok hstate) _
    _ = _ := runCommand_bind_ok (params_apply s) _
    _ = _ := runCommand_bind_ok (h0.radioRead ha RadioMap.irqFlags) _
  refine ⟨fun hrx ha => ?none, fun hrx hcrc ha => ?dropped, fun hrx hcrc ha => ?received⟩
  case none =>
    have hnone : rxDone s.params.radio.layout (s.radioAt 0 RadioMap.irqFlags) = false := hrx
    rw [hread ha, hnone]
    rfl
  case dropped =>
    have hdone : rxDone s.params.radio.layout (s.radioAt 0 RadioMap.irqFlags) = true := hrx
    have hbad : crcError s.params.radio.layout (s.radioAt 0 RadioMap.irqFlags) = true := hcrc
    have hn (n : Nat) (h : n ≤ 5) : s.answers n := State.answers_mono ha h
    rw [hread (hn 1 (by omega)), if_pos hdone, if_pos hbad,
      runCommand_bind_transacted ((hmade rfl).radioWrite (n := 1) (hn 2 (by omega)) _ _),
      runCommand_bind_ok ((hmade rfl).restartRx_receiving (n := 2) (hn 5 (by omega)) hstate)]
    rfl
  case received =>
    have hdone : rxDone s.params.radio.layout (s.radioAt 0 RadioMap.irqFlags) = true := hrx
    have hgood : crcError s.params.radio.layout (s.radioAt 0 RadioMap.irqFlags) = false := hcrc
    have hn (n : Nat) (h : n ≤ 10 + (s.packetLength 3).toNat) : s.answers n := State.answers_mono ha h
    have hpacket : (s.packetTxns 3).length = 3 + (s.packetLength 3).toNat := by
      simp [State.packetTxns]
      omega
    rw [hread (hn 1 (by omega)), if_pos hdone, if_neg (by rw [hgood]; exact Bool.false_ne_true),
      runCommand_bind_transacted ((hmade rfl).radioRead (n := 1) (hn 2 (by omega)) _),
      runCommand_bind_transacted ((hmade rfl).radioRead (n := 2) (hn 3 (by omega)) _),
      runCommand_bind_transacted ((hmade rfl).readPacket (n := 3) (hn _ (by omega))),
      runCommand_bind_transacted ((hmade (n := 6 + (s.packetLength 3).toNat)
        (by simp [hpacket]; omega)).radioWrite (hn _ (by omega)) _ _),
      runCommand_bind_ok ((hmade (n := 7 + (s.packetLength 3).toNat)
        (by simp [hpacket]; omega)).restartRx_receiving (hn _ (by omega)) hstate),
      runCommand_doneData, linkMetrics, beInt_one_sext]
    rfl

/-! ## RADIO_BLOCKING_RX (R174) -/

theorem State.Later.pollRxDone_seen {s t : State} {n k m : Nat} (h : s.Later t n) (hk : k < m)
    (hbefore : ∀ j, j < k →
      rxDone s.params.radio.layout (s.radioAt (n + j) RadioMap.irqFlags) = false)
    (hat : rxDone s.params.radio.layout (s.radioAt (n + k) RadioMap.irqFlags) = true)
    (ha : s.answers (n + (k + 1))) :
    pollRxDone m t = .ok (some (s.radioAt (n + k) RadioMap.irqFlags))
      (State.polled .rxPoll s.params.rxPollIntervalMs (k + 1) t) := by
  have hflags (j : Nat) : t.radioAt j RadioMap.irqFlags = s.radioAt (n + j) RadioMap.irqFlags := by
    rw [h.radioAt, Nat.add_comm]
  rw [Machine.pollRxDone_seen hk (fun j hj => by rw [hflags, h.params, hbefore j hj])
    (by rw [hflags, h.params, hat]) (h.answers ha), hflags, h.params]

theorem State.Later.pollRxDone_none {s t : State} {n m : Nat} (h : s.Later t n)
    (hnever : ∀ j, j < m →
      rxDone s.params.radio.layout (s.radioAt (n + j) RadioMap.irqFlags) = false)
    (ha : s.answers (n + m)) :
    pollRxDone m t = .ok none (State.polled .rxPoll s.params.rxPollIntervalMs m t) := by
  rw [Machine.pollRxDone_none (fun j hj => by rw [h.radioAt, h.params, Nat.add_comm, hnever j hj])
    (h.answers ha), h.params]

/-- `RADIO_BLOCKING_RX` from Standby, up to its poll loop. -/
theorem exec_radioBlockingRx_started {s : State} (ms : Word) (hlife : s.radioLife = .ready)
    (hstate : s.radioState = .standby) (ha : s.answers 3) :
    exec (.radioBlockingRx ms) s =
      runCommand (do
        let event ← pollRxDone (ms.toNat / s.params.rxPollIntervalMs + 1)
        match event with
        | some f =>
          if crcError s.params.radio.layout f then do
            radioWrite RadioMap.irqFlags f
            setMode .standby
            doneWith .crcDropped
          else do
            let packet ← readPacket
            radioWrite RadioMap.irqFlags f
            setMode .standby
            doneData (packet.1 :: packet.2)
        | none => do
          radioWrite RadioMap.irqFlags s.params.radio.layout.clearAllFlags
          setMode .standby
          doneWith .timeout) s.rxStarted := by
  have hparams : params s.rxStarted = .ok s.params s.rxStarted := by
    rw [params_apply, s.later_rxStarted.params]
  exact (runCommand_startRx hlife hstate ha _).trans (runCommand_bind_ok hparams _)

/-- Settles O33: the poll loop ends at the first read with RxDone, whose flag image is the one that is judged
and written back, or after the last read; a mode write to Standby is the last transaction of every
outcome. -/
theorem blockingRxCompletes : Obligations.BlockingRxCompletes := by
  intro s ms hlife hstate polls started polled flags standby seen bad
  have hstarted : s.Later started 3 := s.later_rxStarted
  refine ⟨fun k hk hbefore hat => ⟨fun hbad ha => ?dropped, fun hgood ha => ?received⟩,
    fun hnever ha => ?timeout⟩
  case dropped =>
    have hn (m : Nat) (h : m ≤ k + 6) : s.answers m := State.answers_mono ha h
    have hpolled : s.Later (polled (k + 1)) (k + 4) := hstarted.polled _ _ _ (by omega)
    have hcleared : s.Later _ (k + 5) := hpolled.transacted [s.wrRadio RadioMap.irqFlags (flags k)] rfl
    calc exec (.radioBlockingRx ms) s
      _ = _ := exec_radioBlockingRx_started ms hlife hstate (hn 3 (by omega))
      _ = _ := runCommand_bind_ok (hstarted.pollRxDone_seen hk hbefore hat (hn _ (by omega))) _
      _ = _ := congrFun (congrArg runCommand (if_pos hbad)) _
      _ = _ := runCommand_bind_ok (hpolled.radioWrite (hn _ (by omega)) _ _) _
      _ = _ := runCommand_bind_ok (hcleared.setMode_append (hn _ (by omega)) _) _
  case received =>
    have hn (m : Nat) (h : m ≤ k + 9 + (s.packetLength (k + 4)).toNat) : s.answers m :=
      State.answers_mono ha h
    have hpolled : s.Later (polled (k + 1)) (k + 4) := hstarted.polled _ _ _ (by omega)
    have hpacket : s.Later _ (k + 7 + (s.packetLength (k + 4)).toNat) :=
      hpolled.transacted (s.packetTxns (k + 4)) (by simp [State.packetTxns]; omega)
    have hcleared : s.Later _ (k + 8 + (s.packetLength (k + 4)).toNat) :=
      hpolled.transacted (s.packetTxns (k + 4) ++ [s.wrRadio RadioMap.irqFlags (flags k)])
        (by simp [State.packetTxns]; omega)
    calc exec (.radioBlockingRx ms) s
      _ = _ := exec_radioBlockingRx_started ms hlife hstate (hn 3 (by omega))
      _ = _ := runCommand_bind_ok (hstarted.pollRxDone_seen hk hbefore hat (hn _ (by omega))) _
      _ = _ := congrFun (congrArg runCommand (if_neg (Bool.not_eq_true _ ▸ hgood))) _
      _ = _ := runCommand_bind_ok (hpolled.readPacket (hn _ (by omega))) _
      _ = _ := runCommand_bind_transacted (hpacket.radioWrite (hn _ (by omega)) _ _) _
      _ = _ := runCommand_bind_ok (hcleared.setMode_append (hn _ (by omega)) _) _
      _ = _ := by rw [List.append_assoc]; rfl
  case timeout =>
    have hn (m : Nat) (h : m ≤ polls + 5) : s.answers m := State.answers_mono ha h
    have hpolled : s.Later (polled polls) (polls + 3) := hstarted.polled _ _ _ (Nat.add_comm 3 polls)
    have hcleared : s.Later _ (polls + 4) :=
      hpolled.transacted [s.wrRadio RadioMap.irqFlags s.params.radio.layout.clearAllFlags] rfl
    calc exec (.radioBlockingRx ms) s
      _ = _ := exec_radioBlockingRx_started ms hlife hstate (hn 3 (Nat.le_add_left_of_le (by decide)))
      _ = _ := runCommand_bind_ok (hstarted.pollRxDone_none hnever (hn _ (by omega))) _
      _ = _ := runCommand_bind_ok (hpolled.radioWrite (hn _ (by omega)) _ _) _
      _ = _ := runCommand_bind_ok (hcleared.setMode_append (hn _ (by omega)) _) _

end Sys2Proof.Machine
end

section
/-! A sequence of a command is a list of transactions, made in order up to the first that fails
(40_transport_and_control.md R131, R136): the list, and that the register sequences are such lists whether
their transactions are answered or not. -/

namespace Sys2Proof.Machine

open Sys2Proof

/-! ## Making a list of transactions -/

/-- The transactions of a list, in order, up to the first that fails. -/
def transactAll : List (Device × List Byte) → Act Unit
  | [] => pure ()
  | t :: ts => do
    let _ ← txn t.1 t.2
    transactAll ts

/-- None of the transactions of a list fails. -/
def State.AllAnswered (s : State) (ts : List (Device × List Byte)) : Prop :=
  ∀ k t, ts[k]? = some t → s.receivedAt k t.1 t.2 ≠ none

/-- The transaction of index `k` of a list is the first that fails. -/
def State.FailsAt (s : State) (ts : List (Device × List Byte)) (k : Nat) : Prop :=
  s.AllAnswered (ts.take k) ∧ ∃ t, ts[k]? = some t ∧ s.receivedAt k t.1 t.2 = none

theorem State.allAnswered_nil (s : State) : s.AllAnswered [] := by
  intro k t h
  simp at h

theorem State.allAnswered_cons {s : State} {t : Device × List Byte} {ts : List (Device × List Byte)} :
    s.AllAnswered (t :: ts) ↔
      s.receivedAt 0 t.1 t.2 ≠ none ∧ (s.afterTxn t.1 t.2).AllAnswered ts := by
  constructor
  · intro h
    refine ⟨h 0 t rfl, fun k u hu => ?_⟩
    rw [State.afterTxn_receivedAt]
    exact h (k + 1) u (by simpa using hu)
  · rintro ⟨h0, h⟩ (_ | k) u hu
    · obtain rfl : t = u := by simpa using hu
      exact h0
    · rw [← State.afterTxn_receivedAt s t.1 t.2]
      exact h k u (by simpa using hu)

theorem State.failsAt_zero {s : State} {t : Device × List Byte} {ts : List (Device × List Byte)}
    (h : s.receivedAt 0 t.1 t.2 = none) : s.FailsAt (t :: ts) 0 :=
  ⟨s.allAnswered_nil, t, rfl, h⟩

theorem State.failsAt_succ {s : State} {t : Device × List Byte} {ts : List (Device × List Byte)}
    {k : Nat} (h0 : s.receivedAt 0 t.1 t.2 ≠ none) (h : (s.afterTxn t.1 t.2).FailsAt ts k) :
    s.FailsAt (t :: ts) (k + 1) := by
  obtain ⟨hall, u, hu, hfail⟩ := h
  refine ⟨State.allAnswered_cons.2 ⟨h0, hall⟩, u, by simpa using hu, ?_⟩
  rwa [State.afterTxn_receivedAt] at hfail

/-- A list of transactions is made whole, or up to the one that fails. -/
theorem transactAll_cases (ts : List (Device × List Byte)) (s : State) :
    (s.AllAnswered ts ∧ transactAll ts s = .ok () (s.transacted ts)) ∨
    ∃ k, s.FailsAt ts k ∧ transactAll ts s = .error .busIoError (s.transacted (ts.take (k + 1))) := by
  induction ts generalizing s with
  | nil => exact .inl ⟨s.allAnswered_nil, rfl⟩
  | cons t ts ih =>
    obtain ⟨ins, hins, htxn⟩ | ⟨hfail, htxn⟩ := txn_cases t.1 t.2 s
    · have h0 : s.receivedAt 0 t.1 t.2 ≠ none := by simp [hins]
      obtain ⟨hall, h⟩ | ⟨k, hk, h⟩ := ih (s.afterTxn t.1 t.2)
      · exact .inl ⟨State.allAnswered_cons.2 ⟨h0, hall⟩, by simp [transactAll, htxn, h]⟩
      · exact .inr ⟨k + 1, State.failsAt_succ h0 hk, by simp [transactAll, htxn, h]⟩
    · exact .inr ⟨0, State.failsAt_zero hfail, by simp [transactAll, htxn]⟩

theorem transactAll_append (ts us : List (Device × List Byte)) (s : State) :
    transactAll (ts ++ us) s = (transactAll ts >>= fun _ => transactAll us) s := by
  induction ts generalizing s with
  | nil => rfl
  | cons t ts ih =>
    rw [List.cons_append, transactAll, transactAll, act_bind, act_bind, act_bind]
    cases txn t.1 t.2 s with
    | ok ins s' => exact (ih s').trans (act_bind _ _ _)
    | error e s' => rfl

/-- What a list of transactions adds to the observation. -/
def State.observed (s : State) (ts : List (Device × List Byte)) : List Event :=
  ts.mapIdx fun k t => .txn t.1 t.2 (s.receivedAt k t.1 t.2)

theorem State.transacted_trace (ts : List (Device × List Byte)) (s : State) :
    (s.transacted ts).trace = s.trace ++ s.observed ts := by
  induction ts generalizing s with
  | nil => simp [State.observed]
  | cons t ts ih => simp [ih, State.observed, List.mapIdx_cons]

/-! ## The register sequences as lists -/

/-- A sequence makes the transactions `ts` from `s`, up to the first that fails. -/
def Act.Lists (x : Act Unit) (s : State) (ts : List (Device × List Byte)) : Prop :=
  x s = transactAll ts s

theorem Act.Lists.bind {x : Act Unit} {f : Unit → Act Unit} {s : State}
    {ts us : List (Device × List Byte)} (hx : x.Lists s ts)
    (hf : (f ()).Lists (s.transacted ts) us) : (x >>= f).Lists s (ts ++ us) := by
  have hx' : x s = transactAll ts s := hx
  rw [Act.Lists, transactAll_append, act_bind, act_bind, hx']
  obtain ⟨-, h⟩ | ⟨k, -, h⟩ := transactAll_cases ts s
  · rw [h]
    exact hf
  · rw [h]

theorem lists_withParams {f : Params → Act Unit} {s : State} {ts : List (Device × List Byte)}
    (h : (f s.params).Lists s ts) : (params >>= f).Lists s ts := h

theorem lists_busWrite (d : Device) (a v : Byte) (s : State) :
    (busWrite d a v).Lists s [(d, s.params.framing.writeFrame d a v)] := rfl

theorem lists_busCmd (d : Device) (bytes : List Byte) (s : State) :
    (busCmd d bytes).Lists s [(d, bytes)] := rfl

/-- A read and a sequence that its value decides. -/
theorem lists_busRead_bind {d : Device} {a : Byte} {f : Byte → Act Unit} {s : State}
    {ts : List (Device × List Byte)}
    (h : (f (s.readAt 0 d a)).Lists (s.afterTxn d (s.params.framing.readFrame d a)) ts) :
    (busRead d a >>= f).Lists s ((d, s.params.framing.readFrame d a) :: ts) := by
  rw [Act.Lists, transactAll, act_bind, act_bind]
  obtain ⟨ins, hins, htxn⟩ | ⟨-, htxn⟩ := txn_cases d (s.params.framing.readFrame d a) s
  · have hread : busRead d a s =
        .ok (s.readAt 0 d a) (s.afterTxn d (s.params.framing.readFrame d a)) := by
      rw [State.readAt_of_receivedAt hins]
      simp [busRead, htxn]
    rw [hread, htxn]
    exact h
  · simp [busRead, htxn]

/-- A read of a radio register and a sequence that its value decides. -/
theorem lists_radioRead_bind {reg : RadioMap → Byte} {f : Byte → Act Unit} {s : State}
    {ts : List (Device × List Byte)}
    (h : (f (s.radioAt 0 reg)).Lists (s.transacted [s.rdRadio reg]) ts) :
    (radioRead reg >>= f).Lists s (s.rdRadio reg :: ts) := by
  have hread := lists_busRead_bind h
  rwa [Act.Lists, act_bind] at hread ⊢

namespace State.Later

variable {s t : State} {n : Nat}

theorem lists_radioWrite (h : s.Later t n) (reg : RadioMap → Byte) (v : Byte) :
    (Machine.radioWrite reg v).Lists t [s.wrRadio reg v] := by
  rw [State.wrRadio, ← h.params]
  rfl

theorem lists_radioWrite_bind (h : s.Later t n) {reg : RadioMap → Byte} {v : Byte}
    {f : Unit → Act Unit} {ts : List (Device × List Byte)}
    (hf : ∀ {u}, s.Later u (n + 1) → (f ()).Lists u ts) :
    (Machine.radioWrite reg v >>= f).Lists t (s.wrRadio reg v :: ts) :=
  (h.lists_radioWrite reg v).bind (hf (h.transacted [s.wrRadio reg v] rfl))

theorem lists_radioRead_bind (h : s.Later t n) {reg : RadioMap → Byte} {f : Byte → Act Unit}
    {ts : List (Device × List Byte)}
    (hf : ∀ {u}, s.Later u (n + 1) → (f (s.radioAt n reg)).Lists u ts) :
    (Machine.radioRead reg >>= f).Lists t (s.rdRadio reg :: ts) := by
  have hread : t.radioAt 0 reg = s.radioAt n reg := by rw [h.radioAt, Nat.zero_add]
  have hnext := hf (h.transacted [t.rdRadio reg] rfl)
  rw [← hread] at hnext
  rw [← State.rdRadio_congr h.params]
  exact Machine.lists_radioRead_bind hnext

/-- A register written with a value made from a register that is read first. -/
theorem lists_radioModify (h : s.Later t n) (reg reg' : RadioMap → Byte) (f : Byte → Byte) :
    Act.Lists (do let r ← Machine.radioRead reg; Machine.radioWrite reg' (f r)) t
      [s.rdRadio reg, s.wrRadio reg' (f (s.radioAt n reg))] :=
  h.lists_radioRead_bind fun h1 => h1.lists_radioWrite reg' _

theorem lists_setFrequency (h : s.Later t n) (f : Nat) :
    (Machine.setFrequency f).Lists t (s.frequencyTxns f) := by
  refine lists_withParams ?_
  rw [h.params, frfBytes_eq]
  exact h.lists_radioWrite_bind fun h1 => h1.lists_radioWrite_bind fun h2 => h2.lists_radioWrite _ _

theorem lists_setBandwidth (h : s.Later t n) (bw : Nat) :
    (Machine.setBandwidth bw).Lists t (s.bandwidthTxns n bw) := by
  refine lists_withParams ?_
  rw [h.params]
  exact h.lists_radioModify _ _ _

theorem lists_setLnaAgc (h : s.Later t n) : Machine.setLnaAgc.Lists t (s.lnaAgcTxns n) := by
  refine lists_withParams ?_
  rw [h.params]
  exact h.lists_radioRead_bind fun h1 => h1.lists_radioWrite_bind fun h2 => h2.lists_radioWrite _ _

theorem lists_setTxPower (h : s.Later t n) (p : Int) :
    (Machine.setTxPower p).Lists t (s.txPowerTxns p) := by
  refine lists_withParams ?_
  rw [h.params]
  exact h.lists_radioWrite _ _

theorem lists_setSpreadingFactor (h : s.Later t n) (sf : Int) :
    (Machine.setSpreadingFactor sf).Lists t (s.spreadingFactorTxns n sf) := by
  refine lists_withParams ?_
  have hpair : detectionPair s.params.radio.layout (clamp sf 6 12) =
      (if clamp sf 6 12 = 6 then s.params.radio.layout.detectOptimize6
        else s.params.radio.layout.detectOptimize7,
       if clamp sf 6 12 = 6 then s.params.radio.layout.detectionThreshold6
        else s.params.radio.layout.detectionThreshold7) := by
    rw [detectionPair]
    split <;> rfl
  simp only [h.params, hpair]
  exact h.lists_radioWrite_bind fun h1 => h1.lists_radioWrite_bind fun h2 =>
    h2.lists_radioModify _ _ _

theorem lists_setCodingRate (h : s.Later t n) (c : Int) :
    (Machine.setCodingRate c).Lists t (s.codingRateTxns n c) := by
  refine lists_withParams ?_
  rw [h.params]
  exact h.lists_radioModify _ _ _

theorem lists_setPreamble (h : s.Later t n) (m : Nat) :
    (Machine.setPreamble m).Lists t (s.preambleTxns m) := by
  obtain ⟨hmsb, hlsb⟩ := preambleBytes_eq m
  rw [Machine.setPreamble, hmsb, hlsb]
  exact h.lists_radioWrite_bind fun h1 => h1.lists_radioWrite _ _

theorem lists_setSyncWord (h : s.Later t n) (w : Byte) :
    (Machine.setSyncWord w).Lists t [s.wrRadio RadioMap.syncWord w] :=
  h.lists_radioWrite _ w

theorem lists_setCrc (h : s.Later t n) {crc : Byte} (hcrc : crc = 0 ∨ crc = 1) :
    (Machine.setCrc (flagValue crc)).Lists t (s.crcTxns n crc) := by
  refine lists_withParams ?_
  rw [h.params]
  rcases hcrc with rfl | rfl <;> exact h.lists_radioModify _ _ _

end State.Later

end Sys2Proof.Machine
end

section
/-! The CAN commands (42_can.md): the mode byte, the timing table and the identifiers' bits, then each
command where its transactions are answered, and the loopback law. -/

namespace Sys2Proof

/-! ## Mode operands (R221) -/

/-- A mode operand below 8 is its three low bits. -/
theorem setWidth_setWidth_of_lt_eight {mode : Byte} (h : mode.toNat < 8) :
    (mode.setWidth 3).setWidth 8 = mode := by
  refine BitVec.eq_of_toNat_eq ?_
  simp only [BitVec.toNat_setWidth]
  omega

/-- A mode operand of 8 or more has one of its bits 7:3 set. -/
theorem upper_bits_of_eight_le {mode : Byte} (h : 8 ≤ mode.toNat) : mode &&& 0xF8 ≠ 0 := by
  revert mode
  decide

/-! ## The timing table (R223) -/

theorem Params.timing_eq_some {p : Params} {xtal bitrate : Nat} {e : CanTiming}
    (he : e = p.timingA ∨
      (e = p.timingB ∧ ¬ (p.timingA.crystalHz = xtal ∧ p.timingA.bitrate = bitrate)))
    (hits : e.crystalHz = xtal ∧ e.bitrate = bitrate) : p.timing xtal bitrate = some e := by
  unfold Params.timing
  obtain rfl | ⟨rfl, hA⟩ := he
  · rw [if_pos hits]
  · rw [if_neg hA, if_pos hits]

theorem Params.timing_eq_none {p : Params} {xtal bitrate : Nat}
    (hA : ¬ (p.timingA.crystalHz = xtal ∧ p.timingA.bitrate = bitrate))
    (hB : ¬ (p.timingB.crystalHz = xtal ∧ p.timingB.bitrate = bitrate)) :
    p.timing xtal bitrate = none := by
  rw [Params.timing, if_neg hA, if_neg hB]

/-! ## Identifiers in the reference layout (R224 to R227) -/

theorem pack_reference_std11 (id : Word) :
    CanLayout.reference.pack .std11 id = [id.extractLsb' 3 8, id.extractLsb' 0 3 ++ 0#5] := by
  simp only [CanLayout.pack, CanIdMode.registers, List.range_succ, List.range_zero, List.nil_append,
    List.cons_append, List.map_cons, List.map_nil, List.cons.injEq, and_true]
  refine ⟨BitVec.eq_of_getLsbD_eq fun i hi => ?_, BitVec.eq_of_getLsbD_eq fun i hi => ?_⟩
  · interval_cases i <;>
      simp [IdLayout.byteAt, CanLayout.idLayout, CanLayout.reference, Field.insert, Field.mask]
  · rw [BitVec.getLsbD_append]
    interval_cases i <;>
      simp [IdLayout.byteAt, CanLayout.idLayout, CanLayout.reference, Field.insert, Field.mask]

theorem pack_reference_ext29 (id : Word) :
    CanLayout.reference.pack .ext29 id = [id.extractLsb' 21 8,
      id.extractLsb' 18 3 ++ 0#1 ++ 1#1 ++ 0#1 ++ id.extractLsb' 16 2, id.extractLsb' 8 8,
      id.extractLsb' 0 8] := by
  simp only [CanLayout.pack, CanIdMode.registers, List.range_succ, List.range_zero, List.nil_append,
    List.cons_append, List.map_cons, List.map_nil, List.cons.injEq, and_true]
  refine ⟨BitVec.eq_of_getLsbD_eq fun i hi => ?_, BitVec.eq_of_getLsbD_eq fun i hi => ?sidl,
    BitVec.eq_of_getLsbD_eq fun i hi => ?_, BitVec.eq_of_getLsbD_eq fun i hi => ?_⟩
  case sidl =>
    simp only [BitVec.getLsbD_append]
    interval_cases i <;>
      simp [IdLayout.byteAt, CanLayout.idLayout, CanLayout.reference, Field.insert, Field.mask]
  all_goals
    interval_cases i <;>
      simp [IdLayout.byteAt, CanLayout.idLayout, CanLayout.reference, Field.insert, Field.mask]

theorem unpack_reference_std11 (h l : Byte) :
    CanLayout.reference.unpack .std11 [h, l] = 0#21 ++ h ++ l.extractLsb' 5 3 := by
  refine BitVec.eq_of_getLsbD_eq fun i hi => ?_
  simp only [BitVec.getLsbD_append]
  simp only [CanLayout.unpack, CanLayout.idLayout, CanLayout.reference, Field.get, Field.mask]
  interval_cases i <;> simp

theorem unpack_reference_ext29 (h l e8 e0 : Byte) :
    CanLayout.reference.unpack .ext29 [h, l, e8, e0] =
      0#3 ++ h ++ l.extractLsb' 5 3 ++ l.extractLsb' 0 2 ++ e8 ++ e0 := by
  refine BitVec.eq_of_getLsbD_eq fun i hi => ?_
  simp only [BitVec.getLsbD_append]
  simp only [CanLayout.unpack, CanLayout.idLayout, CanLayout.reference, Field.get, Field.mask]
  interval_cases i <;> simp

/-- An identifier below `2 ^ n` has no bit from `n` on. -/
theorem getLsbD_of_toNat_lt {id : Word} {n i : Nat} (h : id.toNat < 2 ^ n) (hi : n ≤ i) :
    id.getLsbD i = false :=
  Nat.testBit_lt_two_pow (h.trans_le (Nat.pow_le_pow_right (by decide) hi))

/-- What is packed of a legal identifier is the identifier. -/
theorem unpack_pack_reference {m : CanIdMode} {id : Word} (h : canIdLegal m id = true) :
    CanLayout.reference.unpack m (CanLayout.reference.pack m id) = id := by
  cases m with
  | std11 =>
    have hlt : id.toNat < 2 ^ 11 := by simpa [canIdLegal] using h
    rw [pack_reference_std11, unpack_reference_std11]
    refine BitVec.eq_of_getLsbD_eq fun i hi => ?_
    have hhigh := getLsbD_of_toNat_lt (i := i) hlt
    simp only [BitVec.getLsbD_append, BitVec.getLsbD_extractLsb']
    grind
  | ext29 =>
    have hlt : id.toNat < 2 ^ 29 := by simpa [canIdLegal] using h
    rw [pack_reference_ext29, unpack_reference_ext29]
    refine BitVec.eq_of_getLsbD_eq fun i hi => ?_
    have hhigh := getLsbD_of_toNat_lt (i := i) hlt
    simp only [BitVec.getLsbD_append, BitVec.getLsbD_extractLsb']
    grind

theorem dlcCount_dlcByte_reference {n : Nat} (h : n ≤ 8) :
    dlcCount .reference (dlcByte .reference n) = n := by
  revert n
  decide

theorem CanMap.length_idOffsets (c : CanMap) (m : CanIdMode) : (c.idOffsets m).length = m.registers := by
  cases m <;> rfl

theorem Params.length_idAddrs (p : Params) (base : Byte) :
    (p.idAddrs base).length = p.canIdMode.registers := by
  rw [Params.idAddrs, List.length_map, CanMap.length_idOffsets]

theorem Params.length_dataAddrs (p : Params) (base : Byte) (n : Nat) :
    (p.dataAddrs base n).length = n := by
  simp [Params.dataAddrs]

end Sys2Proof

namespace Sys2Proof.Machine

open Sys2Proof

/-! ## The CAN accesses, some transactions later -/

theorem State.wrCan_congr {s t : State} (h : t.params = s.params) : t.wrCan = s.wrCan := by
  funext a v
  rw [State.wrCan, State.wrCan, h]

theorem State.rdCan_congr {s t : State} (h : t.params = s.params) : t.rdCan = s.rdCan := by
  funext a
  rw [State.rdCan, State.rdCan, h]

namespace State.Later

variable {s t : State} {n : Nat}

theorem logged (h : s.Later t n) (e : Event) : s.Later (t.logged e) n where
  params := h.params
  draws := h.draws
  answerAt k d out := by rw [← h.answerAt, State.logged_answerAt]

theorem canWrite (h : s.Later t n) (ha : s.answers (n + 1)) (reg : CanMap → Byte) (v : Byte) :
    Machine.canWrite reg v t = .ok () (t.transacted [s.wrCan (reg s.params.can) v]) := by
  rw [canWrite_ok (h.answers ha 0 Nat.one_pos _ _), State.wrCan, ← h.params]
  rfl

theorem canRead (h : s.Later t n) (ha : s.answers (n + 1)) (reg : CanMap → Byte) :
    Machine.canRead reg t =
      .ok (s.readAt n .can (reg s.params.can)) (t.transacted [s.rdCan (reg s.params.can)]) := by
  rw [canRead_ok (h.answers ha 0 Nat.one_pos _ _), h.readAt, Nat.zero_add, State.rdCan, ← h.params]
  rfl

theorem busReadCan (h : s.Later t n) (ha : s.answers (n + 1)) (addr : Byte) :
    busRead .can addr t = .ok (s.readAt n .can addr) (t.transacted [s.rdCan addr]) := by
  rw [busRead_ok (h.answers ha 0 Nat.one_pos _ _), h.readAt, Nat.zero_add, State.rdCan, ← h.params]
  rfl

theorem readCanBytes (h : s.Later t n) {as : List Byte} (ha : s.answers (n + as.length)) :
    Machine.readCanBytes as t =
      .ok (as.mapIdx fun j a => s.readAt (n + j) .can a) (t.transacted (as.map s.rdCan)) := by
  rw [readCanBytes_ok (h.answers ha), State.rdCan_congr h.params]
  simp only [h.readAt, Nat.add_comm]

theorem setCanMode_append {made : List (Device × List Byte)} (h : s.Later (t.transacted made) n)
    (ha : s.answers (n + 1)) (m : BitVec 3) :
    Machine.setCanMode m (t.transacted made) = .ok () ((t.transacted (made ++
      [s.wrCan s.params.can.canctrl (canctrlByte s.params.can.layout m)])).setCanMode m) := by
  simp only [Machine.setCanMode, act_bind, params_apply, h.params]
  rw [h.canWrite ha]
  simp only [update_apply, State.transacted_append]

end State.Later

theorem setCanMode_ok {s : State} {m : BitVec 3}
    (h : s.answerAt 0 .can (s.params.framing.writeFrame .can s.params.can.canctrl
      (canctrlByte s.params.can.layout m)) ≠ .fail) :
    setCanMode m s = .ok () ((s.transacted [s.wrCan s.params.can.canctrl
      (canctrlByte s.params.can.layout m)]).setCanMode m) := by
  simp only [setCanMode, act_bind, params_apply]
  rw [canWrite_ok h]
  rfl

theorem setCanMode_error {s : State} {m : BitVec 3}
    (h : s.answerAt 0 .can (s.params.framing.writeFrame .can s.params.can.canctrl
      (canctrlByte s.params.can.layout m)) = .fail) :
    setCanMode m s = .error .busIoError (s.transacted [s.wrCan s.params.can.canctrl
      (canctrlByte s.params.can.layout m)]) := by
  simp only [setCanMode, act_bind, params_apply, canWrite]
  rw [busWrite_error h]
  rfl

/-! ## CAN_SET_MODE (R231) -/

/-- Settles O39: the mode check, the gate, and the mode write, whose failure leaves the record. -/
theorem canSetModeRule : Obligations.CanSetModeRule := by
  intro s mode l
  refine ⟨rfl, fun hillegal => ?_, fun hlt hmem => ?_⟩
  · obtain ⟨-, -, hmode, -⟩ := reservedOperandsRefused s
    obtain ⟨-, hset⟩ := hmode mode (hillegal.imp_left upper_bits_of_eight_le)
    exact hset
  · have hbyte := setWidth_setWidth_of_lt_eight hlt
    have hlegal : modeLegal l mode = true := hbyte ▸ modeLegal_setWidth hmem
    have hw : s.wrCan s.params.can.canctrl (l.mode.insert l.modeFixed mode) =
        s.wrCan s.params.can.canctrl (canctrlByte l (modeValue mode)) := by
      rw [canctrlByte, modeValue, hbyte]
    have hchecked : exec (.canSetMode mode) s = _ :=
      runCommand_params_require_ok (c := fun p => modeLegal p.can.layout mode) hlegal _ _
    intro w
    refine ⟨fun h => hchecked.trans (runCommand_canGate_error h _), fun hready hok => ?_,
      fun hready hfail => ?_⟩
    · rw [hchecked, runCommand_bind_ok (canGate_ready hready)]
      simp only [w, hw] at hok ⊢
      exact runCommand_bind_ok (setCanMode_ok hok) _
    · rw [hchecked, runCommand_bind_ok (canGate_ready hready)]
      simp only [w, hw] at hfail ⊢
      exact runCommand_bind_error (setCanMode_error hfail) _

/-! ## CAN_INIT (R230) -/

/-- `CAN_INIT` with a legal mode, up to the table's lookup. -/
theorem exec_canInit_settled {s : State} {code : BitVec 3} (hcode : code ∈ s.params.can.layout.modeCodes)
    (xtal bitrate : Word) (ha : s.answers 1) :
    exec (.canInit xtal bitrate (code.setWidth 8)) s =
      runCommand (match s.params.timing xtal.toNat bitrate.toNat with
        | none => do
          update (State.setCanLife · .unconfigured)
          throw .unsupportedConfiguration
        | some t => do
          canWrite CanMap.cnf1 t.t1
          canWrite CanMap.cnf2 t.t2
          canWrite CanMap.cnf3 t.t3
          setCanMode (modeValue (code.setWidth 8))
          update (State.setCanLife · .ready)
          done)
        ((s.transacted [(Device.can, s.params.framing.canReset)]).logged
          (.delay .canSettle s.params.canSettle)) :=
  (runCommand_params_require_ok (c := fun p => modeLegal p.can.layout (code.setWidth 8))
    (modeLegal_setWidth hcode) _ _).trans <|
    (runCommand_bind_ok (busCmd_ok (ha 0 Nat.one_pos _ _)) _).trans
      (runCommand_bind_ok (delay_apply _ _ _) _)

/-- What `CAN_INIT` does after the settle wait for a tabulated pair. -/
theorem runCommand_canConfigure {s u : State} (h : s.Later u 1) (ha : s.answers 5) (e : CanTiming)
    (code : BitVec 3) :
    runCommand (do
      canWrite CanMap.cnf1 e.t1
      canWrite CanMap.cnf2 e.t2
      canWrite CanMap.cnf3 e.t3
      setCanMode code
      update (State.setCanLife · .ready)
      done) u =
    .next ((((u.transacted [s.wrCan s.params.can.cnf1 e.t1, s.wrCan s.params.can.cnf2 e.t2,
      s.wrCan s.params.can.cnf3 e.t3,
      s.wrCan s.params.can.canctrl (canctrlByte s.params.can.layout code)]).setCanMode
        code).setCanLife .ready).ended .ok []) := by
  have hn (n : Nat) (hle : n ≤ 5) : s.answers n := State.answers_mono ha hle
  have hmade {made : List (Device × List Byte)} {n : Nat} (hlen : 1 + made.length = n) :
      s.Later (u.transacted made) n := h.transacted made hlen
  rw [runCommand_bind_ok (h.canWrite (hn 2 (by omega)) _ _),
    runCommand_bind_transacted ((hmade rfl).canWrite (n := 2) (hn 3 (by omega)) _ _),
    runCommand_bind_transacted ((hmade rfl).canWrite (n := 3) (hn 4 (by omega)) _ _),
    runCommand_bind_ok ((hmade rfl).setCanMode_append (n := 4) (hn 5 (by omega)) _),
    runCommand_bind_ok (update_apply _ _), runCommand_done]
  rfl

/-- Settles O38: the lookup decides whether the triple, the mode and the lifecycle are written. -/
theorem canInitCompletes : Obligations.CanInitCompletes := by
  intro s xtal bitrate code hcode hits l settled
  have hsettled : s.Later settled 1 :=
    ((State.Later.refl s).transacted [(Device.can, s.params.framing.canReset)] rfl).logged _
  refine ⟨fun e he hhits ha => ?_, fun hA hB ha => ?_⟩
  · have hvalue : modeValue (code.setWidth 8) = code := by simp [modeValue]
    rw [exec_canInit_settled hcode xtal bitrate (State.answers_mono ha (by omega)),
      Params.timing_eq_some he hhits, hvalue]
    exact runCommand_canConfigure hsettled ha e code
  · rw [exec_canInit_settled hcode xtal bitrate ha, Params.timing_eq_none hA hB]
    exact runCommand_bind_ok (update_apply _ _) _

/-! ## CAN_RECEIVE (R233) -/

theorem mapIdx_map_readAt (s : State) (base : Byte) (n : Nat) (offsets : List Byte) :
    (offsets.map (base + ·)).mapIdx (fun j a => s.readAt (n + j) .can a) =
      offsets.mapIdx fun j o => s.readAt (n + j) .can (base + o) := by
  refine List.ext_getElem (by simp) fun j _ _ => ?_
  simp

/-- What `CAN_RECEIVE` reads from the identifier registers, after the flag register. -/
def State.rxIdBytes (s : State) : List Byte :=
  (s.params.idAddrs s.params.rxb).mapIdx fun j a => s.readAt (1 + j) .can a

/-- The number of data bytes that `CAN_RECEIVE` reads from the DLC register, after the identifier. -/
def State.rxCount (s : State) : Nat :=
  dlcCount s.params.can.layout
    (s.readAt (s.params.canIdMode.registers + 1) .can (s.params.rxb + s.params.can.dlc))

/-- What `CAN_RECEIVE` reads from the data registers, after the DLC register. -/
def State.rxData (s : State) : List Byte :=
  (s.params.dataAddrs s.params.rxb s.rxCount).mapIdx fun j a =>
    s.readAt (s.params.canIdMode.registers + 2 + j) .can a

/-- `CAN_RECEIVE` up to the choice that the flag image makes. -/
theorem exec_canReceive_read {s : State} (hlife : s.canLife = .ready) (ha : s.answers 1) :
    exec .canReceive s = runCommand
      (if rxFull s.params.can.layout s.params.canRxBuffer (s.readAt 0 .can s.params.can.canintf) then do
        let ids ← readCanBytes (s.params.idAddrs s.params.rxb)
        let raw ← busRead .can (s.params.rxb + s.params.can.dlc)
        let data ← readCanBytes (s.params.dataAddrs s.params.rxb (dlcCount s.params.can.layout raw))
        canWrite CanMap.canintf (clearRxFull s.params.can.layout s.params.canRxBuffer
          (s.readAt 0 .can s.params.can.canintf))
        doneData (wordBytes (s.params.can.layout.unpack s.params.canIdMode ids) ++
          BitVec.ofNat 8 (dlcCount s.params.can.layout raw) :: data)
      else doneWith .noData) (s.transacted [s.rdCan s.params.can.canintf]) :=
  (runCommand_bind_ok (canGate_ready hlife) _).trans <|
    (runCommand_bind_ok (params_apply s) _).trans
      (runCommand_bind_ok ((State.Later.refl s).canRead ha CanMap.canintf) _)

/-- `CAN_RECEIVE` on an empty buffer. -/
theorem exec_canReceive_empty {s : State} (hlife : s.canLife = .ready) (ha : s.answers 1)
    (hempty : rxFull s.params.can.layout s.params.canRxBuffer (s.readAt 0 .can s.params.can.canintf) = false) :
    exec .canReceive s = .next ((s.transacted [s.rdCan s.params.can.canintf]).ended .noData []) := by
  rw [exec_canReceive_read hlife ha, if_neg (by rw [hempty]; exact Bool.false_ne_true),
    runCommand_doneWith]

/-- `CAN_RECEIVE` on a full buffer. -/
theorem exec_canReceive_full {s : State} (hlife : s.canLife = .ready)
    (ha : s.answers (s.params.canIdMode.registers + 3 + s.rxCount))
    (hfull : rxFull s.params.can.layout s.params.canRxBuffer (s.readAt 0 .can s.params.can.canintf) = true) :
    exec .canReceive s = .next ((s.transacted (s.rdCan s.params.can.canintf ::
      (s.params.idAddrs s.params.rxb).map s.rdCan ++ s.rdCan (s.params.rxb + s.params.can.dlc) ::
      (s.params.dataAddrs s.params.rxb s.rxCount).map s.rdCan ++
      [s.wrCan s.params.can.canintf (clearRxFull s.params.can.layout s.params.canRxBuffer
        (s.readAt 0 .can s.params.can.canintf))])).ended .ok
      (wordBytes (s.params.can.layout.unpack s.params.canIdMode s.rxIdBytes) ++
        BitVec.ofNat 8 s.rxCount :: s.rxData)) := by
  have h0 := State.Later.refl s
  have hmade {made : List (Device × List Byte)} {k : Nat} (h : 0 + made.length = k) :
      s.Later (s.transacted made) k := h0.transacted made h
  have hn (k : Nat) (h : k ≤ s.params.canIdMode.registers + 3 + s.rxCount) : s.answers k :=
    State.answers_mono ha h
  have hids := s.params.length_idAddrs s.params.rxb
  have hdata := s.params.length_dataAddrs s.params.rxb s.rxCount
  rw [exec_canReceive_read hlife (hn 1 (by omega)), if_pos hfull,
    runCommand_bind_transacted ((hmade (k := 1) rfl).readCanBytes (hn _ (by omega))),
    runCommand_bind_transacted ((hmade (k := s.params.canIdMode.registers + 1)
      (by simp [hids])).busReadCan (hn _ (by omega)) _), ← State.rxCount,
    runCommand_bind_transacted ((hmade (k := s.params.canIdMode.registers + 2)
      (by simp [hids])).readCanBytes (hn _ (by omega))), ← State.rxData,
    runCommand_bind_ok ((hmade (k := s.params.canIdMode.registers + 2 + s.rxCount)
      (by simp [hids, hdata]; omega)).canWrite (hn _ (by omega)) _ _), ← State.transacted_append,
    runCommand_doneData, List.append_cons, ← State.rxIdBytes]
  simp only [List.cons_append, List.nil_append, List.append_assoc]

/-- Settles O41: the flag read first decides; the reads of the other outcome follow each other. -/
theorem canReceiveCompletes : Obligations.CanReceiveCompletes := by
  refine ⟨fun s hlife => ?_, fun h l e8 e0 => ⟨unpack_reference_std11 h l, unpack_reference_ext29 h l e8 e0⟩⟩
  intro m c full rxb f n ids dlc addrs
  refine ⟨fun hempty ha => exec_canReceive_empty hlife ha hempty, fun hfull ha => ?_⟩
  have hids : s.rxIdBytes = ids := mapIdx_map_readAt s rxb 1 _
  have haddrs : (s.params.idAddrs rxb).map s.rdCan = (c.idOffsets m).map fun o => s.rdCan (rxb + o) :=
    List.map_map
  rw [← hids, ← haddrs]
  exact exec_canReceive_full hlife ha hfull

/-! ## CAN_SEND (R232) -/

/-- A list of answered transactions is made whole. -/
theorem transactAll_ok {ts : List (Device × List Byte)} {s : State} (h : s.answers ts.length) :
    transactAll ts s = .ok () (s.transacted ts) := by
  obtain ⟨-, hok⟩ | ⟨k, ⟨-, t, ht, hfail⟩, -⟩ := transactAll_cases ts s
  · exact hok
  · obtain ⟨hk, -⟩ := List.getElem?_eq_some_iff.1 ht
    exact absurd (State.receivedAt_none.1 hfail) (h k hk _ _)

/-- What `CAN_SEND` writes to the registers of its mailbox, in the order of `CanMap.frameOffsets`. -/
def State.txFrame (s : State) (id : Word) (data : List Byte) : List Byte :=
  s.params.can.layout.pack s.params.canIdMode id ++ dlcByte s.params.can.layout data.length :: data

/-- The writes of `CAN_SEND`. -/
def State.txWrites (s : State) (id : Word) (data : List Byte) : List (Device × List Byte) :=
  ((s.params.can.frameOffsets s.params.canIdMode data.length).zip (s.txFrame id data)).map
    fun w => s.wrCan (s.params.txb + w.1) w.2

/-- The transactions of `CAN_SEND`. -/
def State.sendTxns (s : State) (id : Word) (data : List Byte) : List (Device × List Byte) :=
  s.txWrites id data ++ [(Device.can, s.params.framing.rts s.params.canTxMailbox)]

/-- What `CAN_SEND` does once its checks have passed. -/
def sendFrame (p : Params) (id : Word) (data : List Byte) : Act Unit := do
  writeCanBytes ((p.idAddrs p.txb).zip (p.can.layout.pack p.canIdMode id))
  busWrite .can (p.txb + p.can.dlc) (dlcByte p.can.layout data.length)
  writeCanBytes ((p.dataAddrs p.txb data.length).zip data)
  busCmd .can (p.framing.rts p.canTxMailbox)

theorem exec_canSend_ready {s : State} {id : Word} {data : List Byte} (hlife : s.canLife = .ready)
    (hlen : data.length ≤ 8) (hid : canIdLegal s.params.canIdMode id = true) :
    exec (.canSend id data) s = runCommand (sendFrame s.params id data >>= fun _ => done) s := by
  have hchecked : exec (.canSend id data) s = _ :=
    (runCommand_params_require_ok (c := fun p => canIdLegal p.canIdMode id) hid _ _).trans <|
      (runCommand_bind_ok (require_ok (decide_eq_true hlen) _ s) _).trans
        (runCommand_bind_ok (canGate_ready hlife) _)
  rw [hchecked]
  simp only [sendFrame, bind_assoc]

theorem lists_writeCanBytes (ws : List (Byte × Byte)) (s : State) :
    (writeCanBytes ws).Lists s (ws.map fun w => s.wrCan w.1 w.2) := by
  induction ws generalizing s with
  | nil => rfl
  | cons w ws ih =>
    have hrest := ih (s.transacted [s.wrCan w.1 w.2])
    rw [State.wrCan_congr (State.transacted_params _ _)] at hrest
    exact (lists_busWrite .can w.1 w.2 s).bind hrest

theorem length_pack (l : CanLayout) (m : CanIdMode) (id : Word) :
    (l.pack m id).length = m.registers := by
  simp [CanLayout.pack]

/-- The writes of `CAN_SEND`, part by part. -/
theorem State.txWrites_eq (s : State) (id : Word) (data : List Byte) :
    s.txWrites id data =
      ((s.params.can.idOffsets s.params.canIdMode).zip
        (s.params.can.layout.pack s.params.canIdMode id)).map
          (fun w => s.wrCan (s.params.txb + w.1) w.2) ++
      s.wrCan (s.params.txb + s.params.can.dlc) (dlcByte s.params.can.layout data.length) ::
      data.mapIdx fun j b => s.wrCan (s.params.txb + s.params.can.data + BitVec.ofNat 8 j) b := by
  have hids : (s.params.can.idOffsets s.params.canIdMode).length =
      (s.params.can.layout.pack s.params.canIdMode id).length := by
    rw [CanMap.length_idOffsets, length_pack]
  rw [State.txWrites, State.txFrame, CanMap.frameOffsets, List.zip_append hids, List.map_append,
    List.zip_cons_cons, List.map_cons]
  congr 2
  refine List.ext_getElem (by simp) fun j _ _ => ?_
  simp [BitVec.add_assoc]

theorem lists_sendFrame (s : State) (id : Word) (data : List Byte) :
    (sendFrame s.params id data).Lists s (s.sendTxns id data) := by
  have hids : ((s.params.idAddrs s.params.txb).zip
      (s.params.can.layout.pack s.params.canIdMode id)).map (fun w => s.wrCan w.1 w.2) =
      ((s.params.can.idOffsets s.params.canIdMode).zip
        (s.params.can.layout.pack s.params.canIdMode id)).map
          (fun w => s.wrCan (s.params.txb + w.1) w.2) := by
    rw [Params.idAddrs, List.zip_map_left, List.map_map]
    rfl
  have hdata : ((s.params.dataAddrs s.params.txb data.length).zip data).map
        (fun w => s.wrCan w.1 w.2) =
      data.mapIdx fun j b => s.wrCan (s.params.txb + s.params.can.data + BitVec.ofNat 8 j) b := by
    refine List.ext_getElem (by simp [Params.length_dataAddrs]) fun j _ _ => ?_
    simp [Params.dataAddrs]
  rw [State.sendTxns, State.txWrites_eq, ← hids, ← hdata, List.append_assoc, List.cons_append]
  have hw {u : State} (hu : u.params = s.params) (ws : List (Byte × Byte)) :
      (writeCanBytes ws).Lists u (ws.map fun w => s.wrCan w.1 w.2) :=
    State.wrCan_congr hu ▸ lists_writeCanBytes ws u
  have hparams {u : State} (hu : u.params = s.params) (ts : List (Device × List Byte)) :
      (u.transacted ts).params = s.params := by rw [State.transacted_params, hu]
  have hdlc {u : State} (hu : u.params = s.params) (a v : Byte) :
      (busWrite .can a v).Lists u [s.wrCan a v] :=
    State.wrCan_congr hu ▸ lists_busWrite .can a v u
  exact (hw rfl _).bind <| (hdlc (hparams rfl _) _ _).bind <|
    (hw (hparams (hparams rfl _) _) _).bind (lists_busCmd _ _ _)

theorem State.length_sendTxns (s : State) (id : Word) (data : List Byte) :
    (s.sendTxns id data).length = s.params.canIdMode.registers + 2 + data.length := by
  rw [State.sendTxns, State.txWrites_eq]
  simp [CanMap.length_idOffsets, length_pack]
  omega

/-- Settles O40. -/
theorem canSendCompletes : Obligations.CanSendCompletes := by
  refine ⟨?_, fun id => ⟨pack_reference_std11 id, pack_reference_ext29 id⟩⟩
  intro s id data hlife hlen hid m c txb ha
  have hsent : sendFrame s.params id data s = .ok () (s.transacted (s.sendTxns id data)) :=
    (lists_sendFrame s id data).trans (transactAll_ok (by rwa [State.length_sendTxns]))
  rw [exec_canSend_ready hlife hlen hid, runCommand_bind_ok hsent, State.sendTxns, State.txWrites_eq]
  exact runCommand_done _

/-! ## Loopback (R235) -/

/-- A `CAN_SEND` that ends OK has made all its transactions. -/
theorem exec_canSend_of_ok {s t : State} {id : Word} {data : List Byte}
    (hid : canIdLegal s.params.canIdMode id = true) (hlen : data.length ≤ 8)
    (hexec : exec (.canSend id data) s = .next t) (hok : t.lastStatus = 0x00) :
    s.AllAnswered (s.sendTxns id data) ∧ t.trace = s.trace ++ s.observed (s.sendTxns id data) := by
  have hstatus {u : State} {st : Status} {data : List Byte}
      (h : (.next (u.ended st data) : Host.Outcome State Fault Refusal) = .next t) :
      st.code = 0x00 ∧ t.trace = u.trace := by
    injection h with h
    subst h
    exact ⟨hok, rfl⟩
  by_cases hlife : s.canLife = .ready
  · rw [exec_canSend_ready hlife hlen hid] at hexec
    obtain ⟨hall, hsent⟩ | ⟨k, -, hfail⟩ := transactAll_cases (s.sendTxns id data) s
    · rw [runCommand_bind_ok ((lists_sendFrame s id data).trans hsent), runCommand_done] at hexec
      obtain ⟨-, htrace⟩ := hstatus hexec
      exact ⟨hall, htrace.trans (State.transacted_trace _ s)⟩
    · rw [runCommand_bind_error ((lists_sendFrame s id data).trans hfail)] at hexec
      obtain ⟨hcode, -⟩ := hstatus hexec
      exact absurd hcode (by decide)
  · obtain ⟨-, hsend, -⟩ := canGateRule s hlife
    rw [hsend id data hid hlen] at hexec
    obtain ⟨hcode, -⟩ := hstatus hexec
    exact absurd hcode (by decide)

/-- An answered transaction of a list is in what is observed of it. -/
theorem State.mem_observed {s : State} {ts : List (Device × List Byte)} (hall : s.AllAnswered ts)
    {k : Nat} {t : Device × List Byte} (ht : ts[k]? = some t) :
    ∃ ins, Event.txn t.1 t.2 (some ins) ∈ s.observed ts := by
  obtain ⟨ins, hins⟩ := Option.ne_none_iff_exists'.1 (hall k t ht)
  refine ⟨ins, List.mem_of_getElem? (i := k) ?_⟩
  simp [State.observed, List.getElem?_mapIdx, ht, hins]

/-- A receive that reads, offset by offset, what a send of `id` and `data` writes. -/
def State.ReadsFrame (u : State) (id : Word) (data : List Byte) : Prop :=
  ∀ (k : Nat) (offset b : Byte),
    (u.params.can.frameOffsets u.params.canIdMode data.length)[k]? = some offset →
    (u.txFrame id data)[k]? = some b → u.readAt (k + 1) .can (u.params.rxb + offset) = b

namespace State.ReadsFrame

variable {u : State} {id : Word} {data : List Byte}

theorem rxIdBytes (h : u.ReadsFrame id data) :
    u.rxIdBytes = u.params.can.layout.pack u.params.canIdMode id := by
  have hlen := u.params.can.length_idOffsets u.params.canIdMode
  have hpack := length_pack u.params.can.layout u.params.canIdMode id
  rw [State.rxIdBytes, Params.idAddrs, mapIdx_map_readAt]
  refine List.ext_getElem (by simp [hlen, hpack]) fun j hj hj' => ?_
  rw [List.getElem_mapIdx, Nat.add_comm 1 j]
  refine h j _ _ ?_ ?_
  · rw [CanMap.frameOffsets, List.getElem?_append_left (by omega), List.getElem?_eq_getElem]
  · rw [State.txFrame, List.getElem?_append_left hj', List.getElem?_eq_getElem]

theorem rxCount (h : u.ReadsFrame id data) (hlayout : u.params.can.layout = .reference)
    (hdata : data.length ≤ 8) : u.rxCount = data.length := by
  have hlen := u.params.can.length_idOffsets u.params.canIdMode
  have hpack := length_pack u.params.can.layout u.params.canIdMode id
  have hdlc := h u.params.canIdMode.registers u.params.can.dlc
    (dlcByte u.params.can.layout data.length)
    (by rw [CanMap.frameOffsets, List.getElem?_append_right (by omega), hlen]; simp)
    (by rw [State.txFrame, List.getElem?_append_right (by omega), hpack]; simp)
  rw [State.rxCount, hdlc, hlayout, dlcCount_dlcByte_reference hdata]

theorem rxData (h : u.ReadsFrame id data) (hcount : u.rxCount = data.length) : u.rxData = data := by
  have hlen := u.params.can.length_idOffsets u.params.canIdMode
  have hpack := length_pack u.params.can.layout u.params.canIdMode id
  rw [State.rxData, hcount]
  refine List.ext_getElem (by simp [Params.length_dataAddrs]) fun j hj hj' => ?_
  have hread := h (u.params.canIdMode.registers + 1 + j) (u.params.can.data + BitVec.ofNat 8 j) data[j]
    (by
      rw [CanMap.frameOffsets, List.getElem?_append_right (by omega), hlen, Nat.add_assoc,
        Nat.add_sub_cancel_left, Nat.add_comm 1 j]
      simp [hj'])
    (by
      rw [State.txFrame, List.getElem?_append_right (by omega), hpack, Nat.add_assoc,
        Nat.add_sub_cancel_left, Nat.add_comm 1 j]
      simp [hj'])
  simpa [Params.dataAddrs, BitVec.add_assoc, Nat.add_right_comm] using hread

end State.ReadsFrame

theorem State.transacted_outbox (ts : List (Device × List Byte)) (s : State) :
    (s.transacted ts).outbox = s.outbox := by
  induction ts generalizing s with
  | nil => rfl
  | cons t ts ih => rw [State.transacted_cons, ih, State.afterTxn_outbox]

/-- Settles O42: what the send wrote at an offset is what the receive reads there, and each field of the
received frame is decoded from the bytes it was encoded to. -/
theorem canLoopback : Obligations.CanLoopback := by
  intro s t u id data es hlayout hid hlen hexec hok htrace hparams hlife ha hfull hreads
  obtain ⟨hall, hobserved⟩ := exec_canSend_of_ok hid hlen hexec hok
  obtain rfl : es = s.observed (s.sendTxns id data) :=
    List.append_cancel_left (htrace.symm.trans hobserved)
  have hframe : u.ReadsFrame id data := by
    intro k offset b hoffset hb
    rw [State.txFrame, hparams, ← State.txFrame] at hb
    rw [hparams] at hoffset
    have hwrite : (s.sendTxns id data)[k]? = some (s.wrCan (s.params.txb + offset) b) := by
      have hk : (s.txWrites id data)[k]? = some (s.wrCan (s.params.txb + offset) b) := by
        rw [State.txWrites, List.getElem?_map, (List.getElem?_zip_eq_some (z := (offset, b))).2 ⟨hoffset, hb⟩]
        rfl
      rw [State.sendTxns, List.getElem?_append_left (List.getElem?_eq_some_iff.1 hk).1, hk]
    obtain ⟨ins, hmem⟩ := State.mem_observed hall hwrite
    exact hreads k offset hoffset b ins hmem
  have hlayout' : u.params.can.layout = .reference := hparams ▸ hlayout
  have hcount := hframe.rxCount hlayout' hlen
  have hregisters : u.params.canIdMode.registers ≤ 4 := by cases u.params.canIdMode <;> decide
  refine ⟨_, exec_canReceive_full hlife (State.answers_mono ha (by omega)) hfull, ?_⟩
  rw [State.ended_outbox, hcount, hframe.rxData hcount, hframe.rxIdBytes, hlayout',
    unpack_pack_reference (hparams ▸ hid), State.transacted_outbox]
  rfl

end Sys2Proof.Machine
end

section
/-! What a command does to the state (files 40 to 43): single operations, one after the other, up to the first
transaction that fails (40_transport_and_control.md R131, R136). The operations, runs of them, and the rules
by which a run's operations are read off a command's steps. -/

namespace Sys2Proof.Machine

open Sys2Proof

/-! ## Operations -/

/-- One operation of a command. The reset pulse, and the last two records of `RADIO_INIT` and of `CAN_INIT`,
are one operation each: no transaction stands between their parts. -/
inductive Operation where
  | transact (dev : Device) (out : List Byte)
  | wait (w : Wait) (atLeast : Nat)
  | pulse
  | recordMode (m : RadioState)
  | recordFailed
  | recordConstructed
  | checkHazard
  | recordCanMode (m : BitVec 3)
  | recordCanReady (m : BitVec 3)
  | recordUnconfigured
  | setBuffer (bs : List Byte)

/-- The state an operation leaves. -/
def Operation.apply (s : State) : Operation → State
  | .transact dev out => s.afterTxn dev out
  | .wait w n => s.logged (.delay w n)
  | .pulse => s.pulsed
  | .recordMode m => s.setRadioState m
  | .recordFailed => s.setRadioLife .failed
  | .recordConstructed => (s.setRadioState .standby).setRadioLife .ready
  | .checkHazard => s.hazardChecked
  | .recordCanMode m => s.setCanMode m
  | .recordCanReady m => (s.setCanMode m).setCanLife .ready
  | .recordUnconfigured => s.setCanLife .unconfigured
  | .setBuffer bs => s.setEncBuf bs

/-- A command goes on after an operation unless it is a transaction that fails. -/
def Operation.GoesOn (s : State) : Operation → Prop
  | .transact dev out => s.receivedAt 0 dev out ≠ none
  | _ => True

/-- Operations of a kind `D` lead from `s` to `t`, and none of them is a transaction that fails. -/
def State.Does (D : Operation → Prop) : State → State → Prop :=
  Relation.ReflTransGen fun s t => ∃ o, D o ∧ o.GoesOn s ∧ t = o.apply s

/-- Operations of a kind `D`, and after them a transaction that fails. -/
def State.Fails (D : Operation → Prop) (s t : State) : Prop :=
  ∃ u dev out, s.Does D u ∧ D (.transact dev out) ∧ u.receivedAt 0 dev out = none ∧
    t = u.afterTxn dev out

namespace State

variable {D E : Operation → Prop} {s t u : State}

theorem Does.refl (s : State) : s.Does D s := Relation.ReflTransGen.refl

theorem Does.trans (h : s.Does D t) (h' : t.Does D u) : s.Does D u := Relation.ReflTransGen.trans h h'

theorem Does.one {o : Operation} (ho : D o) (hgo : o.GoesOn s) : s.Does D (o.apply s) :=
  Relation.ReflTransGen.single ⟨o, ho, hgo, rfl⟩

theorem Does.mono (hDE : ∀ o, D o → E o) (h : s.Does D t) : s.Does E t :=
  Relation.ReflTransGen.mono (fun _ _ ⟨o, ho, hgo, heq⟩ => ⟨o, hDE o ho, hgo, heq⟩) _ _ h

/-- A reflexive and transitive relation that every single operation of the kind respects. -/
theorem Does.keeps {R : State → State → Prop} (h : s.Does D t) (hrefl : ∀ s, R s s)
    (htrans : ∀ a b c, R a b → R b c → R a c)
    (hstep : ∀ s o, D o → o.GoesOn s → R s (o.apply s)) : R s t := by
  induction h with
  | refl => exact hrefl _
  | tail _ hlast ih =>
    obtain ⟨o, ho, hgo, rfl⟩ := hlast
    exact htrans _ _ _ ih (hstep _ o ho hgo)

theorem Fails.after (h : s.Does D t) (h' : t.Fails D u) : s.Fails D u := by
  obtain ⟨v, dev, out, hv, hrest⟩ := h'
  exact ⟨v, dev, out, h.trans hv, hrest⟩

end State

theorem Operation.apply_params (s : State) (o : Operation) : (o.apply s).params = s.params := by
  cases o <;> simp [Operation.apply]

theorem State.Does.params {D : Operation → Prop} {s t : State} (h : s.Does D t) : t.params = s.params :=
  h.keeps (R := fun s t => t.params = s.params) (fun _ => rfl) (fun _ _ _ hab hbc => hbc.trans hab)
    fun s o _ _ => o.apply_params s

/-! ## Judgements on a command's steps

`D` holds of the operations that may stand before a transaction, `C` of those that close a command. The
parameters are those of the state that a step begins in. -/

/-- A sequence does operations of the kind `D`, and raises only what a failed transaction does. -/
def Act.Within {α : Type} (p : Params) (D : Operation → Prop) (x : Act α) : Prop :=
  ∀ s, s.params = p →
    (∃ a t, x s = .ok a t ∧ s.Does D t) ∨ ∃ t, x s = .error .busIoError t ∧ s.Fails D t

/-- What a step that raises leaves: any other status closes the command. -/
def State.Raises (D C : Operation → Prop) (s : State) (e : Status) (t : State) : Prop :=
  (e ≠ .busIoError ∧ s.Does (fun o => D o ∨ C o) t) ∨ (e = .busIoError ∧ s.Fails D t)

/-- A check or a sequence that the command may go on after, or that raises. -/
def Act.Stage {α : Type} (p : Params) (D C : Operation → Prop) (x : Act α) : Prop :=
  ∀ s, s.params = p →
    (∃ a t, x s = .ok a t ∧ s.Does D t) ∨ ∃ e t, x s = .error e t ∧ s.Raises D C e t

/-- The last steps of a command: they hand on a value of which `P` holds, or raise. -/
def Act.Ends {α : Type} (p : Params) (D C : Operation → Prop) (P : α → Prop) (x : Act α) : Prop :=
  ∀ s, s.params = p →
    (∃ a t, x s = .ok a t ∧ P a ∧ s.Does (fun o => D o ∨ C o) t) ∨
      ∃ e t, x s = .error e t ∧ s.Raises D C e t

/-- A last step that only hands on a value. -/
def Act.Hands {α : Type} (P : α → Prop) (x : Act α) : Prop := ∀ s, ∃ a, x s = .ok a s ∧ P a

section Rules

variable {p : Params} {D C : Operation → Prop} {α β : Type}

theorem State.Does.closing {s t : State} (h : s.Does D t) : s.Does (fun o => D o ∨ C o) t :=
  h.mono fun _ => Or.inl

theorem State.Raises.after {s t u : State} {e : Status} (h : s.Does D t) (h' : t.Raises D C e u) :
    s.Raises D C e u :=
  h'.imp (fun ⟨he, hu⟩ => ⟨he, h.closing.trans hu⟩) fun ⟨he, hu⟩ => ⟨he, hu.after h⟩

theorem Act.Within.stage {x : Act α} (h : x.Within p D) : x.Stage p D C := fun s hs =>
  (h s hs).imp_right fun ⟨t, hx, ht⟩ => ⟨.busIoError, t, hx, .inr ⟨rfl, ht⟩⟩

theorem Act.Within.ends {x : Act α} (h : x.Within p D) : x.Ends p D C fun _ => True := fun s hs =>
  (h s hs).imp (fun ⟨a, t, hx, ht⟩ => ⟨a, t, hx, trivial, ht.closing⟩)
    fun ⟨t, hx, ht⟩ => ⟨.busIoError, t, hx, .inr ⟨rfl, ht⟩⟩

theorem Act.Within.bind {x : Act α} {f : α → Act β} (hx : x.Within p D) (hf : ∀ a, (f a).Within p D) :
    (x >>= f).Within p D := by
  intro s hs
  obtain ⟨a, t, hxs, ht⟩ | ⟨t, hxs, ht⟩ := hx s hs
  · obtain ⟨b, u, hfu, hu⟩ | ⟨u, hfu, hu⟩ := hf a t (ht.params.trans hs)
    · exact .inl ⟨b, u, by simp [hxs, hfu], ht.trans hu⟩
    · exact .inr ⟨u, by simp [hxs, hfu], hu.after ht⟩
  · exact .inr ⟨t, by simp [hxs], ht⟩

theorem Act.Stage.bind {x : Act α} {f : α → Act β} {P : β → Prop} (hx : x.Stage p D C)
    (hf : ∀ a, (f a).Ends p D C P) : (x >>= f).Ends p D C P := by
  intro s hs
  obtain ⟨a, t, hxs, ht⟩ | ⟨e, t, hxs, ht⟩ := hx s hs
  · obtain ⟨b, u, hfu, hb, hu⟩ | ⟨e, u, hfu, hu⟩ := hf a t (ht.params.trans hs)
    · exact .inl ⟨b, u, by simp [hxs, hfu], hb, ht.closing.trans hu⟩
    · exact .inr ⟨e, u, by simp [hxs, hfu], hu.after ht⟩
  · exact .inr ⟨e, t, by simp [hxs], ht⟩

/-- A sequence within a command. -/
theorem Act.Within.bind_ends {x : Act α} {f : α → Act β} {P : β → Prop} (hx : x.Within p D)
    (hf : ∀ a, (f a).Ends p D C P) : (x >>= f).Ends p D C P :=
  Act.Stage.bind hx.stage hf

/-- A command's last sequence, and what it hands on. -/
theorem Act.Ends.bind {x : Act α} {f : α → Act β} {P : α → Prop} {Q : β → Prop} (hx : x.Ends p D C P)
    (hf : ∀ a, (f a).Hands Q) : (x >>= f).Ends p D C Q := by
  intro s hs
  obtain ⟨a, t, hxs, -, ht⟩ | ⟨e, t, hxs, ht⟩ := hx s hs
  · obtain ⟨b, hfb, hb⟩ := hf a t
    exact .inl ⟨b, t, by simp [hxs, hfb], hb, ht⟩
  · exact .inr ⟨e, t, by simp [hxs], ht⟩

theorem Act.Hands.ends {x : Act α} {P : α → Prop} (h : x.Hands P) : x.Ends p D C P := fun s _ =>
  let ⟨a, hx, ha⟩ := h s
  .inl ⟨a, s, hx, ha, .refl s⟩

theorem Act.Ends.ite {c : Prop} [Decidable c] {x y : Act α} {P : α → Prop} (hx : x.Ends p D C P)
    (hy : y.Ends p D C P) : (if c then x else y).Ends p D C P := by
  split
  · exact hx
  · exact hy

theorem ends_withParams {f : Params → Act α} {P : α → Prop} (h : (f p).Ends p D C P) :
    (params >>= f).Ends p D C P := by
  intro s hs
  obtain rfl := hs
  exact h s rfl

theorem within_withParams {f : Params → Act α} (h : (f p).Within p D) : (params >>= f).Within p D := by
  intro s hs
  obtain rfl := hs
  exact h s rfl

theorem within_pure (a : α) : (pure a : Act α).Within p D := fun s _ => .inl ⟨a, s, rfl, .refl s⟩

/-- An operation that is no transaction. -/
theorem within_update {f : State → State} {o : Operation} (ho : D o) (hgo : ∀ s, o.GoesOn s)
    (hf : ∀ s, f s = o.apply s) : (update f).Within p D := fun s _ =>
  .inl ⟨(), f s, rfl, hf s ▸ .one ho (hgo s)⟩

/-- An operation that closes the command. -/
theorem ends_update {f : State → State} {o : Operation} (ho : C o) (hgo : ∀ s, o.GoesOn s)
    (hf : ∀ s, f s = o.apply s) : (update f).Ends p D C fun _ => True := fun s _ =>
  .inl ⟨(), f s, rfl, trivial, hf s ▸ .one (.inr ho) (hgo s)⟩

theorem ends_throw {e : Status} (he : e ≠ .busIoError) {P : α → Prop} :
    (throw e : Act α).Ends p D C P := fun s _ => .inr ⟨e, s, rfl, .inl ⟨he, .refl s⟩⟩

/-! ### Checks -/

/-- A step that leaves the state as it is, and raises no bus error. -/
def Act.Checks (x : Act α) : Prop := ∀ s, (∃ a, x s = .ok a s) ∨ ∃ e, e ≠ .busIoError ∧ x s = .error e s

theorem Act.Checks.stage {x : Act α} (h : x.Checks) : x.Stage p D C := fun s _ =>
  (h s).imp (fun ⟨a, hx⟩ => ⟨a, s, hx, .refl s⟩)
    fun ⟨e, he, hx⟩ => ⟨e, s, hx, .inl ⟨he, .refl s⟩⟩

theorem checks_require {c : Bool} {e : Status} (he : e ≠ .busIoError) : (require c e).Checks := by
  intro s
  cases h : c
  · exact .inr ⟨e, he, require_error rfl e s⟩
  · exact .inl ⟨(), require_ok rfl e s⟩

/-- A check of an operand, whose success what follows may use. -/
theorem ends_require_bind {c : Bool} {e : Status} (he : e ≠ .busIoError) {f : Unit → Act β}
    {P : β → Prop} (hf : c = true → (f ()).Ends p D C P) : (require c e >>= f).Ends p D C P := by
  cases h : c with
  | false => exact fun s _ => .inr ⟨e, s, by simp [require_error], .inl ⟨he, .refl s⟩⟩
  | true =>
    intro s hs
    have hrun : (require true e >>= f) s = f () s := by simp [require_ok]
    rw [hrun]
    exact hf h s hs

theorem checks_radioGate : radioGate.Checks := by
  intro s
  cases h : s.radioLife with
  | uninit => exact .inr ⟨_, by decide, radioGate_uninit h⟩
  | ready => exact .inl ⟨(), radioGate_ready h⟩
  | failed => exact .inr ⟨_, by decide, radioGate_failed h⟩

theorem checks_requireRadioState (m : RadioState) : (requireRadioState m).Checks := by
  intro s
  by_cases h : s.radioState = m
  · exact .inl ⟨(), requireRadioState_ok h⟩
  · exact .inr ⟨_, by decide, requireRadioState_error h⟩

theorem checks_canGate : canGate.Checks := by
  intro s
  by_cases h : s.canLife = .ready
  · exact .inl ⟨(), canGate_ready h⟩
  · exact .inr ⟨_, by decide, canGate_error h⟩

theorem checks_notFailed : notFailed.Checks := by
  intro s
  by_cases h : s.radioLife = .failed
  · exact .inr ⟨_, by decide, notFailed_error h⟩
  · exact .inl ⟨(), notFailed_ok h⟩

theorem checks_rawDevice (dev addr : Byte) : (rawDevice dev addr).Checks := by
  intro s
  cases hdev : deviceOf dev with
  | none => exact .inr ⟨.illegalOperand, by decide, by simp [rawDevice, hdev]⟩
  | some d =>
    by_cases haddr : addr.toNat < 2 ^ s.params.addrBits d
    · exact .inl ⟨d, by simp [rawDevice, hdev, haddr]⟩
    · exact .inr ⟨.addressRange, by decide, by simp [rawDevice, hdev, haddr]⟩

/-! ### Transactions -/

theorem within_txn {dev : Device} {out : List Byte} (h : D (.transact dev out)) :
    (txn dev out).Within p D := by
  intro s _
  obtain ⟨ins, hins, htxn⟩ | ⟨hfail, htxn⟩ := txn_cases dev out s
  · exact .inl ⟨ins, _, htxn, State.Does.one (o := .transact dev out) h (by simp [Operation.GoesOn, hins])⟩
  · exact .inr ⟨_, htxn, s, dev, out, .refl s, h, hfail, rfl⟩

theorem within_busWrite {dev : Device} {a v : Byte} (h : D (.transact dev (p.framing.writeFrame dev a v))) :
    (busWrite dev a v).Within p D :=
  within_withParams <| (within_txn h).bind fun _ => within_pure _

theorem within_busRead {dev : Device} {a : Byte} (h : D (.transact dev (p.framing.readFrame dev a))) :
    (busRead dev a).Within p D :=
  within_withParams <| (within_txn h).bind fun _ => within_pure _

theorem within_busCmd {dev : Device} {bytes : List Byte} (h : D (.transact dev bytes)) :
    (busCmd dev bytes).Within p D :=
  (within_txn h).bind fun _ => within_pure _

theorem within_delay {w : Wait} {n : Nat} (h : D (.wait w n)) : (delay w n).Within p D :=
  within_update h (fun _ => trivial) fun _ => rfl

/-! ### The values a command hands on -/

/-- A command that no transaction has ended returns a status of its own. -/
def NotBusError (r : Status × List Byte) : Prop := r.1 ≠ .busIoError

theorem hands_done : done.Hands NotBusError := fun _ => ⟨_, rfl, fun h => by cases h⟩

theorem hands_doneData (data : List Byte) : (doneData data).Hands NotBusError :=
  fun _ => ⟨_, rfl, fun h => by cases h⟩

theorem hands_doneWith {st : Status} (h : st ≠ .busIoError) : (doneWith st).Hands NotBusError :=
  fun _ => ⟨_, rfl, h⟩

end Rules

end Sys2Proof.Machine
end

section
/-! The operations of every command (files 40 to 43): which ones it may do before a transaction fails, and
which ones close it; that each command is made of these. -/

namespace Sys2Proof

/-- A frame that, in the reference profile, writes no power out of range (41_radio.md R157). -/
def Params.PowerSafe (p : Params) (out : List Byte) : Prop :=
  p.framing = .reference → p.radio = .reference →
    ∀ v : Byte, out = [0x89, v] → 0x80 ≤ v.toNat ∧ v.toNat ≤ 0x8F

/-- The commands that wait while they run. -/
def Instr.waits : Instr → Bool
  | .radioTransmit _ | .radioBlockingRx _ | .canInit _ _ _ => true
  | _ => false

/-- The command that constructs the radio. -/
def Instr.constructsRadio : Instr → Bool
  | .radioInit _ _ _ _ _ _ _ _ => true
  | _ => false

/-- The single-parameter configuration commands, with whatever operand. -/
def Instr.configures : Instr → Bool
  | .radioSetFrequency _ | .radioSetBandwidth _ | .radioSetLnaAgc | .radioSetTxPower _ | .radioSetSf _
  | .radioSetCr _ | .radioSetPreamble _ | .radioSetSyncWord _ | .radioSetCrc _ => true
  | _ => false

/-- The modes that a command records and goes on after. -/
def Instr.recordsOnTheWay : Instr → RadioState → Bool
  | .radioInit _ _ _ _ _ _ _ _, m => m == .sleep
  | .radioTransmit _, m => m == .transmitting
  | .radioBlockingRx _, m => m == .receivingContinuous
  | _, _ => false

/-- The modes that a command records as the last thing it does. -/
def Instr.recordsLast : Instr → RadioState → Bool
  | .radioTransmit _, m | .radioBlockingRx _, m | .radioStandby, m => m == .standby
  | .radioStartRx, m | .radioPollRx, m => m == .receivingContinuous
  | .radioSleep, m => m == .sleep
  | _, _ => false

/-- The command that constructs the CAN controller. -/
def Instr.constructsCan : Instr → Bool
  | .canInit _ _ _ => true
  | _ => false

/-- The command that changes the CAN mode alone. -/
def Instr.changesCanMode : Instr → Bool
  | .canSetMode _ => true
  | _ => false

open Machine

/-- The operations that a command may do before a transaction. -/
def Instr.during (p : Params) (i : Instr) : Operation → Prop
  | .transact _ out => i.family ≠ .codec ∧ (i.family = .radio → p.PowerSafe out)
  | .wait _ _ => i.waits = true
  | .pulse => i.constructsRadio = true
  | .recordMode m => i.recordsOnTheWay m = true
  | .checkHazard => i.configures = true
  | _ => False

/-- The operations that close a command. -/
def Instr.closing (p : Params) (i : Instr) : Operation → Prop
  | .recordMode m => i.recordsLast m = true
  | .recordFailed => i.constructsRadio = true
  | .recordConstructed => i.constructsRadio = true
  | .recordCanMode m => i.changesCanMode = true ∧ m ∈ p.can.layout.modeCodes
  | .recordCanReady m => i.constructsCan = true ∧ m ∈ p.can.layout.modeCodes
  | .recordUnconfigured => i.constructsCan = true
  | .setBuffer bs => i.family = .codec ∧ bs.length ≤ p.encCap
  | _ => False

end Sys2Proof

namespace Sys2Proof.Machine

open Sys2Proof

theorem notBusError_ok (data : List Byte) : NotBusError (.ok, data) := fun h => by cases h

/-! ## Frames that keep the power in range -/

/-- A write of any register but RegPaConfig. -/
theorem powerSafe_writeFrame {p : Params} {reg : RadioMap → Byte}
    (h : 0x80 ||| (reg .reference &&& 0x7F) ≠ 0x89) (v : Byte) :
    p.PowerSafe (p.framing.writeFrame .radio (reg p.radio) v) := by
  intro hframing hradio v' hout
  rw [hframing, hradio, writeFrame_reference] at hout
  injection hout with hout
  exact absurd hout h

/-- The power `SetTxPower` writes is in range, and boosted (R157). -/
theorem paConfigByte_reference_range (dBm : Int) :
    0x80 ≤ (paConfigByte .reference dBm).toNat ∧ (paConfigByte .reference dBm).toNat ≤ 0x8F := by
  have hlist : ∀ k : Fin 16,
      0x80 ≤ (RadioLayout.reference.outputPower.insert RadioLayout.reference.paFixed
        (RadioLayout.reference.powerCodes.getD k 0)).toNat ∧
      (RadioLayout.reference.outputPower.insert RadioLayout.reference.paFixed
        (RadioLayout.reference.powerCodes.getD k 0)).toNat ≤ 0x8F := by decide
  have hlt : (clamp dBm 2 17 - 2).toNat < 16 := by
    unfold clamp
    omega
  exact hlist ⟨_, hlt⟩

theorem powerSafe_paConfig (p : Params) (dBm : Int) :
    p.PowerSafe (p.framing.writeFrame .radio p.radio.paConfig (paConfigByte p.radio.layout dBm)) := by
  intro hframing hradio v hout
  rw [hframing, hradio, writeFrame_reference] at hout
  obtain rfl : paConfigByte .reference dBm = v := by
    injection hout with _ hout
    injection hout
  exact paConfigByte_reference_range dBm

theorem powerSafe_readFrame (p : Params) (a : Byte) :
    p.PowerSafe (p.framing.readFrame .radio a) := by
  intro hframing _ v hout
  rw [hframing, readFrame_reference] at hout
  injection hout with hout
  have hread : ∀ a : Byte, a &&& 0x7F ≠ 0x89 := by decide
  exact absurd hout (hread _)

/-! ## The radio's register sequences (41_radio.md section 2) -/

section Radio

variable {p : Params} {D C : Operation → Prop}
  (hD : ∀ out, p.PowerSafe out → D (.transact .radio out))
include hD

theorem within_radioWrite (reg : RadioMap → Byte) (v : Byte)
    (h : 0x80 ||| (reg .reference &&& 0x7F) ≠ 0x89 := by decide) : (radioWrite reg v).Within p D :=
  within_withParams <| within_busWrite <| hD _ <| powerSafe_writeFrame h v

theorem within_radioRead (reg : RadioMap → Byte) : (radioRead reg).Within p D :=
  within_withParams <| within_busRead <| hD _ <| powerSafe_readFrame p _

theorem within_radioModify (reg reg' : RadioMap → Byte) (f : Byte → Byte)
    (h : 0x80 ||| (reg' .reference &&& 0x7F) ≠ 0x89 := by decide) :
    Act.Within p D (do let r ← radioRead reg; radioWrite reg' (f r)) :=
  (within_radioRead hD reg).bind fun _ => within_radioWrite hD reg' _ h

theorem within_setFrequency (f : Nat) : (setFrequency f).Within p D :=
  within_withParams <| (within_radioWrite hD _ _).bind fun _ =>
    (within_radioWrite hD _ _).bind fun _ => within_radioWrite hD _ _

theorem within_setBandwidth (bw : Nat) : (setBandwidth bw).Within p D :=
  within_withParams <| within_radioModify hD _ _ _

theorem within_setLnaAgc : setLnaAgc.Within p D :=
  within_withParams <| (within_radioRead hD _).bind fun _ =>
    (within_radioWrite hD _ _).bind fun _ => within_radioWrite hD _ _

theorem within_setTxPower (dBm : Int) : (setTxPower dBm).Within p D :=
  within_withParams <| within_withParams <| within_busWrite <| hD _ <| powerSafe_paConfig p dBm

theorem within_setSpreadingFactor (sf : Int) : (setSpreadingFactor sf).Within p D :=
  within_withParams <| (within_radioWrite hD _ _).bind fun _ =>
    (within_radioWrite hD _ _).bind fun _ => within_radioModify hD _ _ _

theorem within_setCodingRate (c : Int) : (setCodingRate c).Within p D :=
  within_withParams <| within_radioModify hD _ _ _

theorem within_setPreamble (n : Nat) : (setPreamble n).Within p D :=
  (within_radioWrite hD _ _).bind fun _ => within_radioWrite hD _ _

theorem within_setSyncWord (w : Byte) : (setSyncWord w).Within p D := within_radioWrite hD _ _

theorem within_setCrc (e : Bool) : (setCrc e).Within p D :=
  within_withParams <| within_radioModify hD _ _ _

theorem within_resetFifoTx : resetFifoTx.Within p D :=
  within_withParams <| within_radioWrite hD _ _

theorem within_resetFifoRx : resetFifoRx.Within p D :=
  within_withParams <| (within_radioWrite hD _ _).bind fun _ => within_radioWrite hD _ _

theorem within_readFifo (n : Nat) : (readFifo n).Within p D := by
  induction n with
  | zero => exact within_pure []
  | succ n ih =>
    exact (within_radioRead hD _).bind fun _ => ih.bind fun _ => within_pure _

theorem within_writeFifo (bs : List Byte) : (writeFifo bs).Within p D := by
  induction bs with
  | nil => exact within_pure ()
  | cons b bs ih => exact (within_radioWrite hD _ _).bind fun _ => ih

theorem within_readPacket : readPacket.Within p D :=
  (within_radioRead hD _).bind fun _ => (within_radioRead hD _).bind fun _ =>
    (within_radioWrite hD _ _).bind fun _ => (within_readFifo hD _).bind fun _ => within_pure _

theorem within_pollTxDone (hwait : ∀ w n, D (.wait w n)) (n : Nat) : (pollTxDone n).Within p D := by
  induction n with
  | zero => exact within_pure false
  | succ n ih =>
    refine within_withParams <| (within_radioRead hD _).bind fun f => ?_
    split
    · exact within_pure true
    · split
      · exact within_pure false
      · exact (within_delay (hwait _ _)).bind fun _ => ih

theorem within_pollRxDone (hwait : ∀ w n, D (.wait w n)) (n : Nat) : (pollRxDone n).Within p D := by
  induction n with
  | zero => exact within_pure none
  | succ n ih =>
    refine within_withParams <| (within_radioRead hD _).bind fun f => ?_
    split
    · exact within_pure (some f)
    · split
      · exact within_pure none
      · exact (within_delay (hwait _ _)).bind fun _ => ih

theorem within_modeWrite (m : RadioState) :
    (radioWrite RadioMap.opMode (opModeByte p.radio.layout m)).Within p D :=
  within_radioWrite hD _ _

/-- A mode write that the command goes on after. -/
theorem within_setMode {m : RadioState} (h : D (.recordMode m)) : (setMode m).Within p D :=
  within_withParams <| (within_modeWrite hD m).bind fun _ =>
    within_update h (fun _ => trivial) fun _ => rfl

/-- A mode write that closes the command. -/
theorem ends_setMode {m : RadioState} (h : C (.recordMode m)) :
    (setMode m).Ends p D C fun _ => True :=
  ends_withParams <| (within_modeWrite hD m).bind_ends fun _ =>
    ends_update h (fun _ => trivial) fun _ => rfl

theorem ends_restartRx (h : C (.recordMode .receivingContinuous)) :
    restartRx.Ends p D C fun _ => True :=
  (within_resetFifoRx hD).bind_ends fun _ => ends_setMode hD h

/-- The identity check of `RADIO_INIT`, whose failure is the last thing recorded (R170). -/
theorem stage_checkIdentity (h : C .recordFailed) : checkIdentity.Stage p D C := by
  intro s hs
  obtain ⟨id, t, hread, ht⟩ | ⟨t, hread, ht⟩ := within_radioRead hD RadioMap.version s hs
  · by_cases hid : id = s.params.radioIdValue
    · exact .inl ⟨(), t, by simp [checkIdentity, hread, hid], ht⟩
    · exact .inr ⟨.deviceNotFound, t.setRadioLife .failed, by simp [checkIdentity, hread, hid],
        .inl ⟨by decide, ht.closing.trans (.one (o := .recordFailed) (.inr h) trivial)⟩⟩
  · exact .inr ⟨.busIoError, t, by simp [checkIdentity, hread], .inr ⟨rfl, ht⟩⟩

/-- The last steps of `RADIO_INIT`: the mode and the lifecycle are recorded together. -/
theorem ends_constructRadio (h : C .recordConstructed) :
    Act.Ends p D C NotBusError (do setMode .standby; update (State.setRadioLife · .ready); done) := by
  intro s hs
  obtain rfl := hs
  obtain ⟨_, t, hwrite, ht⟩ | ⟨t, hwrite, ht⟩ := within_modeWrite hD .standby s rfl
  · exact .inl ⟨(.ok, []), (t.setRadioState .standby).setRadioLife .ready, by simp [setMode, hwrite],
      notBusError_ok [], ht.closing.trans (.one (o := .recordConstructed) (.inr h) trivial)⟩
  · exact .inr ⟨.busIoError, t, by simp [setMode, hwrite], .inr ⟨rfl, ht⟩⟩

end Radio

theorem within_pulseReset {p : Params} {D : Operation → Prop} (h : D .pulse) : pulseReset.Within p D :=
  fun s _ => .inl ⟨(), _, pulseReset_apply s, .one (o := .pulse) h trivial⟩

theorem within_hazardCheck {p : Params} {D : Operation → Prop} (h : D .checkHazard) :
    hazardCheck.Within p D :=
  within_update h (fun _ => trivial) fun _ => rfl

/-- What a single-parameter configuration command does around its sequence (R177 to R185). -/
theorem ends_configure {p : Params} {D C : Operation → Prop} {sequence : Act Unit}
    (h : sequence.Within p D) (hazard : D .checkHazard) :
    (configure sequence).Ends p D C NotBusError :=
  checks_radioGate.stage.bind fun _ => (within_hazardCheck hazard).bind_ends fun _ =>
    h.bind_ends fun _ => hands_done.ends

/-- A last step whose record is the reason to raise. -/
theorem Act.Ends.bind_throw {p : Params} {D C : Operation → Prop} {α β : Type} {x : Act α}
    {P : α → Prop} {Q : β → Prop} (hx : x.Ends p D C P) {e : Status} (he : e ≠ .busIoError) :
    (x >>= fun _ => (throw e : Act β)).Ends p D C Q := by
  intro s hs
  obtain ⟨a, t, hxs, -, ht⟩ | ⟨e', t, hxs, ht⟩ := hx s hs
  · exact .inr ⟨e, t, by simp [hxs], .inl ⟨he, ht⟩⟩
  · exact .inr ⟨e', t, by simp [hxs], ht⟩

/-! ## The CAN accesses (42_can.md section 1) -/

section Can

variable {p : Params} {D C : Operation → Prop} (hD : ∀ dev out, D (.transact dev out))
include hD

theorem within_canWrite (reg : CanMap → Byte) (v : Byte) : (canWrite reg v).Within p D :=
  within_withParams <| within_busWrite <| hD _ _

theorem within_canRead (reg : CanMap → Byte) : (canRead reg).Within p D :=
  within_withParams <| within_busRead <| hD _ _

theorem within_writeCanBytes (ws : List (Byte × Byte)) : (writeCanBytes ws).Within p D := by
  induction ws with
  | nil => exact within_pure ()
  | cons w ws ih => exact (within_busWrite (hD _ _)).bind fun _ => ih

theorem within_readCanBytes (as : List Byte) : (readCanBytes as).Within p D := by
  induction as with
  | nil => exact within_pure []
  | cons a as ih =>
    exact (within_busRead (hD _ _)).bind fun _ => ih.bind fun _ => within_pure _

theorem ends_setCanMode {m : BitVec 3} (h : C (.recordCanMode m)) :
    (setCanMode m).Ends p D C fun _ => True :=
  ends_withParams <| (within_canWrite hD _ _).bind_ends fun _ =>
    ends_update h (fun _ => trivial) fun _ => rfl

/-- The last steps of `CAN_INIT` for a tabulated pair: the mode and the lifecycle are recorded together. -/
theorem ends_constructCan {m : BitVec 3} (h : C (.recordCanReady m)) :
    Act.Ends p D C NotBusError (do setCanMode m; update (State.setCanLife · .ready); done) := by
  intro s hs
  obtain rfl := hs
  obtain ⟨_, t, hwrite, ht⟩ | ⟨t, hwrite, ht⟩ :=
    within_canWrite hD CanMap.canctrl (canctrlByte s.params.can.layout m) s rfl
  · exact .inl ⟨(.ok, []), (t.setCanMode m).setCanLife .ready, by simp [setCanMode, hwrite],
      notBusError_ok [], ht.closing.trans (.one (o := .recordCanReady m) (.inr h) trivial)⟩
  · exact .inr ⟨.busIoError, t, by simp [setCanMode, hwrite], .inr ⟨rfl, ht⟩⟩

end Can

/-- A legal mode operand carries one of the layout's codes (R221). -/
theorem modeValue_mem_of_legal {l : CanLayout} {mode : Byte} (h : modeLegal l mode = true) :
    modeValue mode ∈ l.modeCodes := by
  have hboth : mode &&& 0xF8 = 0 ∧ mode.setWidth 3 ∈ l.modeCodes := by simpa [modeLegal] using h
  exact hboth.2

/-! ## The encoder buffer (43_codec.md) -/

theorem ends_appendElement {p : Params} {D C : Operation → Prop} (el : List Byte)
    (h : ∀ bs, bs.length ≤ p.encCap → C (.setBuffer bs)) :
    (appendElement el).Ends p D C fun _ => True := by
  intro s hs
  by_cases hfits : s.encBuf.length + el.length ≤ s.params.encCap
  · refine .inl ⟨(), _, appendElement_ok hfits, trivial, .one (o := .setBuffer (s.encBuf ++ el)) ?_ trivial⟩
    exact .inr (h _ (by rwa [List.length_append, ← hs]))
  · exact .inr ⟨.lengthError, s, appendElement_error hfits, .inl ⟨by decide, .refl s⟩⟩

theorem ends_encodeCommand {p : Params} {D C : Operation → Prop} (k : LppKind) (ch : Byte)
    (qs : List Int) (h : ∀ bs, bs.length ≤ p.encCap → C (.setBuffer bs)) :
    (encodeCommand k ch qs).Ends p D C NotBusError := by
  refine ends_withParams ?_
  cases encodeElement p.lppCodes k ch qs with
  | none => exact ends_throw (by decide)
  | some el => exact (ends_appendElement el h).bind fun _ => hands_done

theorem ends_decode {p : Params} {D C : Operation → Prop} (stream : List Byte) :
    Act.Ends p D C NotBusError (do
      let p ← params
      match decodeStream p stream with
      | .ok rs => doneData (recordsBytes rs)
      | .error e => throw e) := by
  refine ends_withParams ?_
  cases hdecode : decodeStream p stream with
  | ok rs => exact (hands_doneData _).ends
  | error e =>
    obtain rfl : e = .codecTruncated := decodeWalk_error hdecode
    exact ends_throw (by decide)

/-! ## The commands -/

/-- The body of a command that does the operations of its instruction. -/
def Act.BodyOf (p : Params) (i : Instr) (body : Act (Status × List Byte)) : Prop :=
  body.Ends p (i.during p) (i.closing p) NotBusError

section Commands

variable (p : Params)

theorem during_transact_radio {i : Instr} (hi : i.family = .radio) (out : List Byte)
    (h : p.PowerSafe out) : i.during p (.transact .radio out) :=
  ⟨by rw [hi]; decide, fun _ => h⟩

theorem during_transact_transport {i : Instr} (hi : i.family = .transport) (dev : Device)
    (out : List Byte) : i.during p (.transact dev out) :=
  ⟨by rw [hi]; decide, fun h => absurd (hi.symm.trans h) (by decide)⟩

theorem during_transact_can {i : Instr} (hi : i.family = .can) (dev : Device) (out : List Byte) :
    i.during p (.transact dev out) :=
  ⟨by rw [hi]; decide, fun h => absurd (hi.symm.trans h) (by decide)⟩

theorem ends_radioInit (freq bw sf cr preamble : Word) (sync : Byte) (txpow : Word) (crc : Byte) :
    Act.BodyOf p (.radioInit freq bw sf cr preamble sync txpow crc) (do
      require (flagLegal crc) .illegalOperand
      notFailed
      pulseReset
      checkIdentity
      setMode .sleep
      setFrequency freq.toNat
      setBandwidth bw.toNat
      setLnaAgc
      setTxPower txpow.toInt
      setSpreadingFactor sf.toInt
      setCodingRate cr.toInt
      setPreamble preamble.toNat
      setSyncWord sync
      setCrc (flagValue crc)
      setMode .standby
      update (State.setRadioLife · .ready)
      done) := by
  have hD := during_transact_radio p (i := .radioInit freq bw sf cr preamble sync txpow crc) rfl
  have hpulse : (Instr.radioInit freq bw sf cr preamble sync txpow crc).during p .pulse := rfl
  have hsleep : (Instr.radioInit freq bw sf cr preamble sync txpow crc).during p
    (.recordMode .sleep) := rfl
  have hfailed : (Instr.radioInit freq bw sf cr preamble sync txpow crc).closing p .recordFailed := rfl
  exact (checks_require (by decide)).stage.bind fun _ => checks_notFailed.stage.bind fun _ =>
    (within_pulseReset hpulse).bind_ends fun _ => (stage_checkIdentity hD hfailed).bind fun _ =>
    (within_setMode hD hsleep).bind_ends fun _ => (within_setFrequency hD _).bind_ends fun _ =>
    (within_setBandwidth hD _).bind_ends fun _ => (within_setLnaAgc hD).bind_ends fun _ =>
    (within_setTxPower hD _).bind_ends fun _ => (within_setSpreadingFactor hD _).bind_ends fun _ =>
    (within_setCodingRate hD _).bind_ends fun _ => (within_setPreamble hD _).bind_ends fun _ =>
    (within_setSyncWord hD _).bind_ends fun _ => (within_setCrc hD _).bind_ends fun _ =>
    ends_constructRadio hD rfl

/-- What follows the payload in `RADIO_TRANSMIT` (R171), for a budget and the value that clears the flag. -/
def transmitTail (budget : Nat) (clear : Byte) : Act (Status × List Byte) := do
  let seen ← pollTxDone budget
  radioWrite RadioMap.irqFlags clear
  if seen then do
    update (State.setRadioState · .standby)
    done
  else do
    setMode .standby
    doneWith .timeout

/-- What follows the mode write in `RADIO_BLOCKING_RX` (R174). -/
def blockingRxTail (l : RadioLayout) (budget : Nat) : Act (Status × List Byte) := do
  let event ← pollRxDone budget
  match event with
  | some f =>
    if crcError l f then do
      radioWrite RadioMap.irqFlags f
      setMode .standby
      doneWith .crcDropped
    else do
      let packet ← readPacket
      radioWrite RadioMap.irqFlags f
      setMode .standby
      doneData (packet.1 :: packet.2)
  | none => do
    radioWrite RadioMap.irqFlags l.clearAllFlags
    setMode .standby
    doneWith .timeout

end Commands

section Tails

variable {p : Params} {D C : Operation → Prop} (hD : ∀ out, p.PowerSafe out → D (.transact .radio out))
  (hwait : ∀ w n, D (.wait w n))
include hD hwait

theorem ends_transmitTail (hmode : C (.recordMode .standby)) (budget : Nat) (clear : Byte) :
    (transmitTail budget clear).Ends p D C NotBusError := by
  refine (within_pollTxDone hD hwait _).bind_ends fun _ =>
    (within_radioWrite hD _ _).bind_ends fun _ => Act.Ends.ite ?seen ?timeout
  case seen => exact (ends_update hmode (fun _ => trivial) fun _ => rfl).bind fun _ => hands_done
  case timeout => exact (ends_setMode hD hmode).bind fun _ => hands_doneWith (by decide)

theorem ends_blockingRxTail (hmode : C (.recordMode .standby)) (l : RadioLayout) (budget : Nat) :
    (blockingRxTail l budget).Ends p D C NotBusError := by
  refine (within_pollRxDone hD hwait _).bind_ends fun event => ?_
  cases event with
  | none =>
    exact (within_radioWrite hD _ _).bind_ends fun _ =>
      (ends_setMode hD hmode).bind fun _ => hands_doneWith (by decide)
  | some f =>
    refine Act.Ends.ite ?dropped ?received
    case dropped =>
      exact (within_radioWrite hD _ _).bind_ends fun _ =>
        (ends_setMode hD hmode).bind fun _ => hands_doneWith (by decide)
    case received =>
      exact (within_readPacket hD).bind_ends fun _ => (within_radioWrite hD _ _).bind_ends fun _ =>
        (ends_setMode hD hmode).bind fun _ => hands_doneData _

end Tails

/-- Every command but `GET_STATUS` does the operations of its instruction. -/
theorem exec_bodyOf {i : Instr} (hi : i.bookkept) (s : State) :
    ∃ body, exec i s = runCommand body s ∧ Act.BodyOf s.params i body := by
  obtain ⟨hget, hbus, helement⟩ := hi
  cases i with
  | busWrite dev addr val =>
    have hD := during_transact_transport s.params (i := .busWrite dev addr val) rfl
    exact ⟨_, rfl, (checks_rawDevice _ _).stage.bind fun d =>
      (within_busWrite (hD d _)).bind_ends fun _ => hands_done.ends⟩
  | busRead dev addr =>
    have hD := during_transact_transport s.params (i := .busRead dev addr) rfl
    exact ⟨_, rfl, (checks_rawDevice _ _).stage.bind fun d =>
      (within_busRead (hD d _)).bind_ends fun _ => (hands_doneData _).ends⟩
  | getStatus => exact absurd rfl hget
  | radioInit freq bw sf cr preamble sync txpow crc => exact ⟨_, rfl, ends_radioInit _ _ _ _ _ _ _ _ _⟩
  | radioTransmit payload =>
    have hD := during_transact_radio s.params (i := .radioTransmit payload) rfl
    have hmode : (Instr.radioTransmit payload).during s.params (.recordMode .transmitting) := rfl
    have hlast : (Instr.radioTransmit payload).closing s.params (.recordMode .standby) := rfl
    exact ⟨_, rfl, ends_withParams <| (checks_require (by decide)).stage.bind fun _ =>
      checks_radioGate.stage.bind fun _ => (checks_requireRadioState _).stage.bind fun _ =>
      (within_resetFifoTx hD).bind_ends fun _ => (within_writeFifo hD _).bind_ends fun _ =>
      (within_radioWrite hD _ _).bind_ends fun _ => (within_setMode hD hmode).bind_ends fun _ =>
      ends_transmitTail hD (fun _ _ => rfl) hlast _ _⟩
  | radioStartRx =>
    have hD := during_transact_radio s.params (i := .radioStartRx) rfl
    have hmode : Instr.radioStartRx.closing s.params (.recordMode .receivingContinuous) := rfl
    exact ⟨_, rfl, checks_radioGate.stage.bind fun _ => (checks_requireRadioState _).stage.bind fun _ =>
      (within_resetFifoRx hD).bind_ends fun _ => (ends_setMode hD hmode).bind fun _ => hands_done⟩
  | radioPollRx =>
    have hD := during_transact_radio s.params (i := .radioPollRx) rfl
    have hmode : Instr.radioPollRx.closing s.params (.recordMode .receivingContinuous) := rfl
    refine ⟨_, rfl, checks_radioGate.stage.bind fun _ => (checks_requireRadioState _).stage.bind fun _ =>
      ends_withParams <| (within_radioRead hD _).bind_ends fun f =>
      Act.Ends.ite (Act.Ends.ite ?dropped ?received) (hands_doneWith (by decide)).ends⟩
    case dropped =>
      exact (within_radioWrite hD _ _).bind_ends fun _ =>
        (ends_restartRx hD hmode).bind fun _ => hands_doneWith (by decide)
    case received =>
      exact (within_radioRead hD _).bind_ends fun _ => (within_radioRead hD _).bind_ends fun _ =>
        (within_readPacket hD).bind_ends fun _ => (within_radioWrite hD _ _).bind_ends fun _ =>
        (ends_restartRx hD hmode).bind fun _ => hands_doneData _
  | radioBlockingRx ms =>
    have hD := during_transact_radio s.params (i := .radioBlockingRx ms) rfl
    have hmode : (Instr.radioBlockingRx ms).during s.params (.recordMode .receivingContinuous) := rfl
    have hlast : (Instr.radioBlockingRx ms).closing s.params (.recordMode .standby) := rfl
    exact ⟨_, rfl, checks_radioGate.stage.bind fun _ => (checks_requireRadioState _).stage.bind fun _ =>
      (within_resetFifoRx hD).bind_ends fun _ => (within_setMode hD hmode).bind_ends fun _ =>
      ends_withParams <| ends_blockingRxTail hD (fun _ _ => rfl) hlast _ _⟩
  | radioSleep =>
    have hD := during_transact_radio s.params (i := .radioSleep) rfl
    have hmode : Instr.radioSleep.closing s.params (.recordMode .sleep) := rfl
    exact ⟨_, rfl, checks_radioGate.stage.bind fun _ => (ends_setMode hD hmode).bind fun _ => hands_done⟩
  | radioStandby =>
    have hD := during_transact_radio s.params (i := .radioStandby) rfl
    have hmode : Instr.radioStandby.closing s.params (.recordMode .standby) := rfl
    exact ⟨_, rfl, checks_radioGate.stage.bind fun _ => (ends_setMode hD hmode).bind fun _ => hands_done⟩
  | radioSetFrequency freq =>
    exact ⟨_, rfl, ends_configure (within_setFrequency (during_transact_radio s.params rfl) _) rfl⟩
  | radioSetBandwidth bw =>
    exact ⟨_, rfl, ends_configure (within_setBandwidth (during_transact_radio s.params rfl) _) rfl⟩
  | radioSetLnaAgc =>
    exact ⟨_, rfl, ends_configure (within_setLnaAgc (during_transact_radio s.params rfl)) rfl⟩
  | radioSetTxPower txpow =>
    exact ⟨_, rfl, ends_configure (within_setTxPower (during_transact_radio s.params rfl) _) rfl⟩
  | radioSetSf sf =>
    exact ⟨_, rfl, ends_configure (within_setSpreadingFactor (during_transact_radio s.params rfl) _) rfl⟩
  | radioSetCr cr =>
    exact ⟨_, rfl, ends_configure (within_setCodingRate (during_transact_radio s.params rfl) _) rfl⟩
  | radioSetPreamble preamble =>
    exact ⟨_, rfl, ends_configure (within_setPreamble (during_transact_radio s.params rfl) _) rfl⟩
  | radioSetSyncWord sync =>
    exact ⟨_, rfl, ends_configure (within_setSyncWord (during_transact_radio s.params rfl) _) rfl⟩
  | radioSetCrc crc =>
    exact ⟨_, rfl, (checks_require (by decide)).stage.bind fun _ =>
      ends_configure (within_setCrc (during_transact_radio s.params rfl) _) rfl⟩
  | canInit xtal bitrate mode =>
    have hD := during_transact_can s.params (i := .canInit xtal bitrate mode) rfl
    have hsettle : (Instr.canInit xtal bitrate mode).during s.params
      (.wait .canSettle s.params.canSettle) := rfl
    have hfail : (Instr.canInit xtal bitrate mode).closing s.params .recordUnconfigured := rfl
    refine ⟨_, rfl, ends_withParams <| ends_require_bind (by decide) fun hmode =>
      (within_busCmd (hD _ _)).bind_ends fun _ => (within_delay hsettle).bind_ends fun _ => ?_⟩
    cases s.params.timing xtal.toNat bitrate.toNat with
    | none =>
      exact (ends_update hfail (fun _ => trivial) fun _ => rfl).bind_throw (by decide)
    | some t =>
      exact (within_canWrite hD _ _).bind_ends fun _ => (within_canWrite hD _ _).bind_ends fun _ =>
        (within_canWrite hD _ _).bind_ends fun _ =>
        ends_constructCan hD ⟨rfl, modeValue_mem_of_legal hmode⟩
  | canSetMode mode =>
    have hD := during_transact_can s.params (i := .canSetMode mode) rfl
    exact ⟨_, rfl, ends_withParams <| ends_require_bind (by decide) fun hmode =>
      checks_canGate.stage.bind fun _ =>
      (ends_setCanMode hD ⟨rfl, modeValue_mem_of_legal hmode⟩).bind fun _ => hands_done⟩
  | canSend id data =>
    have hD := during_transact_can s.params (i := .canSend id data) rfl
    exact ⟨_, rfl, ends_withParams <| (checks_require (by decide)).stage.bind fun _ =>
      (checks_require (by decide)).stage.bind fun _ => checks_canGate.stage.bind fun _ =>
      (within_writeCanBytes hD _).bind_ends fun _ => (within_busWrite (hD _ _)).bind_ends fun _ =>
      (within_writeCanBytes hD _).bind_ends fun _ => (within_busCmd (hD _ _)).bind_ends fun _ =>
      hands_done.ends⟩
  | canReceive =>
    have hD := during_transact_can s.params (i := .canReceive) rfl
    refine ⟨_, rfl, checks_canGate.stage.bind fun _ => ends_withParams <|
      (within_canRead hD _).bind_ends fun _ =>
      Act.Ends.ite ?received (hands_doneWith (by decide)).ends⟩
    exact (within_readCanBytes hD _).bind_ends fun _ => (within_busRead (hD _ _)).bind_ends fun _ =>
      (within_readCanBytes hD _).bind_ends fun _ => (within_canWrite hD _ _).bind_ends fun _ =>
      (hands_doneData _).ends
  | lppEncReset =>
    have hclear : Instr.lppEncReset.closing s.params (.setBuffer []) := ⟨rfl, Nat.zero_le _⟩
    exact ⟨_, rfl, (ends_update hclear (fun _ => trivial) fun _ => rfl).bind fun _ => hands_done⟩
  | lppEncDigital ch v => exact ⟨_, rfl, ends_encodeCommand _ _ _ fun _ hbs => ⟨rfl, hbs⟩⟩
  | lppEncAnalog ch q => exact ⟨_, rfl, ends_encodeCommand _ _ _ fun _ hbs => ⟨rfl, hbs⟩⟩
  | lppEncAccel ch qx qy qz => exact ⟨_, rfl, ends_encodeCommand _ _ _ fun _ hbs => ⟨rfl, hbs⟩⟩
  | lppEncGps ch qlat qlon qalt => exact ⟨_, rfl, ends_encodeCommand _ _ _ fun _ hbs => ⟨rfl, hbs⟩⟩
  | lppEncRead =>
    exact ⟨_, rfl, Act.Hands.ends fun s =>
      ⟨(.ok, BitVec.ofNat 8 s.encBuf.length :: s.encBuf), rfl, notBusError_ok _⟩⟩
  | lppDecode stream => exact ⟨_, rfl, ends_decode stream⟩
  | busframeRadioWrite addr val => exact absurd rfl hbus
  | busframeRadioRead addr => exact absurd rfl hbus
  | busframeCanWrite addr val => exact absurd rfl hbus
  | busframeCanRead addr => exact absurd rfl hbus
  | busframeCanReset => exact absurd rfl hbus
  | busframeCanRts mask => exact absurd rfl hbus
  | lppDigitalInput ch v => exact absurd rfl helement
  | lppAnalogInput ch v => exact absurd rfl helement
  | lppAccelerometer ch x y z => exact absurd rfl helement
  | lppGps ch lat lon alt => exact absurd rfl helement

/-- How a command's outcome comes about: no transaction failed and the status is another one, or the
status is the failed transaction's and nothing came after it. -/
inductive EndsIn (i : Instr) (s : State) : Host.Outcome State Fault Refusal → Prop
  | completed (u : State) (st : Status) (data : List Byte) (hst : st ≠ .busIoError)
      (hu : s.Does (fun o => i.during s.params o ∨ i.closing s.params o) u) :
      EndsIn i s (.next (u.ended st data))
  | failed (u : State) (hu : s.Fails (i.during s.params) u) : EndsIn i s (.next (u.ended .busIoError []))

theorem Act.BodyOf.endsIn {i : Instr} {s : State} {body : Act (Status × List Byte)}
    (h : Act.BodyOf s.params i body) : EndsIn i s (runCommand body s) := by
  obtain ⟨r, u, hrun, hr, hu⟩ | ⟨e, u, hrun, ⟨he, hu⟩ | ⟨rfl, hu⟩⟩ := h s rfl
  · rw [runCommand_next, State.afterCommand_ok hrun]
    exact .completed u r.1 r.2 hr hu
  · rw [runCommand_of_error hrun]
    exact .completed u e [] he hu
  · rw [runCommand_of_error hrun]
    exact .failed u hu

theorem exec_endsIn {i : Instr} (hi : i.bookkept) (s : State) : EndsIn i s (exec i s) := by
  obtain ⟨body, hrun, hbody⟩ := exec_bodyOf hi s
  exact hrun ▸ hbody.endsIn

end Sys2Proof.Machine
end

section
/-! What instructions and steps leave unchanged (40_transport_and_control.md R131, 60_exceptions.md R303): the
forms an instruction's and a step's outcome can have, the observation, and the families of commands. -/

namespace Sys2Proof.Machine

open Sys2Proof

/-! ## The forms of an outcome -/

/-- An instruction is a command with bookkeeping, `GET_STATUS`, a payload element, or a bus frame. -/
theorem exec_forms (i : Instr) (s : State) :
    (i.bookkept ∧ EndsIn i s (exec i s)) ∨
    (i = .getStatus ∧ ∃ data, exec i s = .next (s.answered (.result Status.ok.code data))) ∨
    (i.family = .element ∧ ∃ bytes, exec i s = .next (s.answered (.record bytes))) ∨
    (i.family = .busFrame ∧ ∃ dev out, exec i s = .next (s.afterTxn dev out)) := by
  by_cases hget : i = .getStatus
  · subst hget
    exact .inr (.inl ⟨rfl, _, rfl⟩)
  by_cases hbus : i.family = .busFrame
  · refine .inr (.inr (.inr ⟨hbus, ?_⟩))
    cases i <;> cases hbus
    all_goals exact ⟨_, _, rfl⟩
  by_cases helement : i.family = .element
  · refine .inr (.inr (.inl ⟨helement, ?_⟩))
    cases i <;> cases helement
    all_goals exact ⟨_, rfl⟩
  exact .inl ⟨⟨hget, hbus, helement⟩, exec_endsIn ⟨hget, hbus, helement⟩ s⟩

/-- A step waits, resets the core, runs an instruction, or refuses a frame that decodes to none. -/
theorem step_forms {s t : State} (h : step s = .next t) :
    (s.inbox = [] ∧ t = s) ∨ ∃ x rest, s.inbox = x :: rest ∧
      ((x = .coreReset ∧ t = (s.setInbox rest).coreReset) ∨
        (x ≠ .coreReset ∧ ((∃ i, exec i (s.setInbox rest) = .next t) ∨
          ∃ st, t = (s.setInbox rest).ended st []))) := by
  unfold step at h
  split at h
  next hin =>
    cases h
    exact .inl ⟨hin, rfl⟩
  next x rest hin =>
    refine .inr ⟨x, rest, hin, ?_⟩
    split at h
    next hdecode =>
      cases h
      cases x with
      | coreReset => exact .inl ⟨rfl, rfl⟩
      | _ => cases hdecode
    next i hdecode =>
      refine .inr ⟨?_, .inl ⟨i, h⟩⟩
      rintro rfl
      cases hdecode
    next e hdecode =>
      refine .inr ⟨?_, .inr ?_⟩
      · rintro rfl
        cases hdecode
      · cases e with
        | status st =>
          cases h
          exact ⟨st, rfl⟩
        | notABusFrame => cases h
        | notAnElement => cases h

/-- A relation that the operations of an instruction respect holds between the state it begins in and the one
that its bookkeeping is made in. -/
theorem EndsIn.keeps {i : Instr} {s t : State} (h : EndsIn i s (.next t)) {R : State → State → Prop}
    (hrefl : ∀ s, R s s) (htrans : ∀ a b c, R a b → R b c → R a c)
    (hstep : ∀ u o, i.during s.params o ∨ i.closing s.params o → R u (o.apply u)) :
    ∃ u st data, R s u ∧ t = u.ended st data := by
  cases h with
  | completed u st data hst hu =>
    exact ⟨u, st, data, hu.keeps hrefl htrans fun u o ho _ => hstep u o ho, rfl⟩
  | failed u hu =>
    obtain ⟨v, dev, out, hv, hD, -, rfl⟩ := hu
    have hsv := hv.keeps hrefl htrans fun u o ho _ => hstep u o (.inl ho)
    exact ⟨_, _, _, htrans _ _ _ hsv (hstep v _ (.inl hD)), rfl⟩

/-! ## The observation (40_transport_and_control.md R131) -/

theorem length_filter_isTxn_txn (d : Device) (out : List Byte) (ins : Option (List Byte)) :
    ([Event.txn d out ins].filter Event.isTxn).length = 1 := rfl

/-- What a step adds to the observation, with one answer of the devices used for every transaction, and the
inputs and answers as they were. -/
def State.Observes (s t : State) : Prop :=
  ∃ es, t.trace = s.trace ++ es ∧ t.draws = s.draws + (es.filter Event.isTxn).length ∧
    t.replies = s.replies.drop (es.filter Event.isTxn).length ∧ t.outbox = s.outbox ∧ t.inbox = s.inbox

theorem State.Observes.refl (s : State) : s.Observes s := ⟨[], by simp, by simp, by simp, rfl, rfl⟩

/-- An update that records no event. -/
theorem State.Observes.of_same {s t : State} (htrace : t.trace = s.trace) (hdraws : t.draws = s.draws)
    (hreplies : t.replies = s.replies) (hout : t.outbox = s.outbox) (hin : t.inbox = s.inbox) :
    s.Observes t :=
  ⟨[], by simp [htrace], by simp [hdraws], by simp [hreplies], hout, hin⟩

theorem State.observes_operationClosed : OperationClosed State.Observes where
  refl := State.Observes.refl
  trans := by
    rintro a b c ⟨es, htrace, hdraws, hreplies, hout, hin⟩ ⟨es', htrace', hdraws', hreplies', hout', hin'⟩
    exact ⟨es ++ es', by rw [htrace', htrace, List.append_assoc],
      by rw [hdraws', hdraws, List.filter_append, List.length_append, Nat.add_assoc],
      by rw [hreplies', hreplies, List.drop_drop, List.filter_append, List.length_append],
      hout'.trans hout, hin'.trans hin⟩
  afterTxn s d out :=
    ⟨[.txn d out (s.receivedAt 0 d out)], by simp, by simp [length_filter_isTxn_txn],
      by simp [length_filter_isTxn_txn], by simp, by simp⟩
  pin s line level := ⟨[.pin line level], by simp, by simp [Event.isTxn], by simp [Event.isTxn],
    by simp, by simp⟩
  wait s w n := ⟨[.delay w n], by simp, by simp [Event.isTxn], by simp [Event.isTxn], by simp, by simp⟩
  writeRadioState _ _ := .of_same rfl rfl rfl rfl rfl
  writeRadioLife _ _ := .of_same rfl rfl rfl rfl rfl
  hazardChecked s := .of_same (by simp) (by simp) (by simp) (by simp) (by simp)
  writeCanLife _ _ := .of_same rfl rfl rfl rfl rfl
  writeCanMode _ _ := .of_same rfl rfl rfl rfl rfl
  clearBuffer _ := .of_same rfl rfl rfl rfl rfl
  append _ _ _ := .of_same rfl rfl rfl rfl rfl

/-- Settles O12: the operations of a command only append to the observation, and the one answer is the last
thing a step makes. -/
theorem observationOnlyGrows : Obligations.ObservationOnlyGrows := by
  intro s t h
  obtain ⟨hin, rfl⟩ | ⟨i, rest, hin, hform⟩ := State.observes_operationClosed.step_cases h
  · exact ⟨[], [], by simp, by simp, by simp, by simp [hin], by simp, by simp⟩
  have htail : rest = s.inbox.tail := by rw [hin, List.tail_cons]
  obtain rfl | ⟨u, st, data, ⟨es, htrace, hdraws, hreplies, hout, hbox⟩, rfl⟩ | ⟨o, rfl⟩ | ⟨d, out, rfl⟩ :=
    hform
  · exact ⟨[], [], by simp [State.coreReset], by simp [State.coreReset], by simp,
      by simpa [State.coreReset] using htail, by simp [State.coreReset], by simp [State.coreReset]⟩
  · exact ⟨es, [.result st.code data], by simpa using htrace, by simpa using hout, by simp,
      by simpa [htail] using hbox, by simpa using hdraws, by simpa using hreplies⟩
  · exact ⟨[], [o], by simp, by simp, by simp, by simpa using htail, by simp, by simp⟩
  · exact ⟨[.txn d out ((s.setInbox rest).receivedAt 0 d out)], [], by simp, by simp, by simp,
      by simpa using htail, by simp [length_filter_isTxn_txn], by simp [length_filter_isTxn_txn]⟩

/-! ## Families of commands (files 40 to 43) -/

namespace Operation

/-- The operations that write the radio's record. -/
def writesRadio : Operation → Bool
  | .pulse | .recordMode _ | .recordFailed | .recordConstructed | .checkHazard => true
  | _ => false

/-- The operations that write the CAN controller's record. -/
def writesCan : Operation → Bool
  | .recordCanMode _ | .recordCanReady _ | .recordUnconfigured => true
  | _ => false

/-- The operations that write the encoder buffer. -/
def writesBuffer : Operation → Bool
  | .setBuffer _ => true
  | _ => false

/-- The operations that the host can observe on the bus, the lines and the waits. -/
def observed : Operation → Bool
  | .transact _ _ | .wait _ _ | .pulse => true
  | _ => false

variable {o : Operation} (s : State)

theorem apply_sameRadio (h : o.writesRadio = false) : s.sameRadio (o.apply s) := by
  cases o with
  | transact _ _ | wait _ _ | recordCanMode _ | recordCanReady _ | recordUnconfigured | setBuffer _ =>
    simp [Operation.apply, State.sameRadio]
  | pulse | recordMode _ | recordFailed | recordConstructed | checkHazard => cases h

theorem apply_sameCan (h : o.writesCan = false) : s.sameCan (o.apply s) := by
  cases o with
  | pulse =>
    simp only [Operation.apply, State.sameCan, State.pulsed]
    split <;> simp
  | transact _ _ | wait _ _ | recordMode _ | recordFailed | recordConstructed | checkHazard
  | setBuffer _ => simp [Operation.apply, State.sameCan]
  | recordCanMode _ | recordCanReady _ | recordUnconfigured => cases h

theorem apply_encBuf (h : o.writesBuffer = false) : (o.apply s).encBuf = s.encBuf := by
  cases o with
  | pulse =>
    simp only [Operation.apply, State.pulsed]
    split <;> simp
  | transact _ _ | wait _ _ | recordMode _ | recordFailed | recordConstructed | checkHazard
  | recordCanMode _ | recordCanReady _ | recordUnconfigured => simp [Operation.apply]
  | setBuffer _ => cases h

theorem apply_sameBus (h : o.observed = false) : s.sameBus (o.apply s) := by
  cases o with
  | transact _ _ | wait _ _ | pulse => cases h
  | recordMode _ | recordFailed | recordConstructed | checkHazard | recordCanMode _ | recordCanReady _
  | recordUnconfigured | setBuffer _ => simp [Operation.apply, State.sameBus]

theorem apply_ledLine : (o.apply s).ledLine = s.ledLine := by
  cases o with
  | pulse =>
    simp only [Operation.apply, State.pulsed]
    split <;> simp
  | _ => simp [Operation.apply]

end Operation

/-! ### Which operations a family has -/

theorem family_of_constructsRadio {i : Instr} (h : i.constructsRadio = true) : i.family = .radio := by
  cases i <;> cases h
  rfl

theorem family_of_configures {i : Instr} (h : i.configures = true) : i.family = .radio := by
  cases i <;> cases h
  all_goals rfl

theorem family_of_recordsOnTheWay {i : Instr} {m : RadioState} (h : i.recordsOnTheWay m = true) :
    i.family = .radio := by
  cases i with
  | radioInit _ _ _ _ _ _ _ _ | radioTransmit _ | radioBlockingRx _ => rfl
  | _ => cases h

theorem family_of_recordsLast {i : Instr} {m : RadioState} (h : i.recordsLast m = true) :
    i.family = .radio := by
  cases i with
  | radioTransmit _ | radioBlockingRx _ | radioStandby | radioStartRx | radioPollRx | radioSleep => rfl
  | _ => cases h

theorem family_of_constructsCan {i : Instr} (h : i.constructsCan = true) : i.family = .can := by
  cases i <;> cases h
  rfl

theorem family_of_changesCanMode {i : Instr} (h : i.changesCanMode = true) : i.family = .can := by
  cases i <;> cases h
  rfl

theorem family_ne_codec_of_waits {i : Instr} (h : i.waits = true) : i.family ≠ .codec := by
  cases i with
  | radioTransmit _ | radioBlockingRx _ | canInit _ _ _ =>
    intro hi
    cases hi
  | _ => cases h

section Families

variable {p : Params} {i : Instr} {o : Operation}

theorem writesRadio_eq_false (ho : i.during p o ∨ i.closing p o) (hi : i.family ≠ .radio) :
    o.writesRadio = false := by
  cases o with
  | transact _ _ | wait _ _ | recordCanMode _ | recordCanReady _ | recordUnconfigured | setBuffer _ => rfl
  | pulse | recordFailed | recordConstructed =>
    exact absurd (family_of_constructsRadio (by simpa [Instr.during, Instr.closing] using ho)) hi
  | recordMode m => exact absurd (ho.elim family_of_recordsOnTheWay family_of_recordsLast) hi
  | checkHazard => exact absurd (family_of_configures (by simpa [Instr.during, Instr.closing] using ho)) hi

theorem writesCan_eq_false (ho : i.during p o ∨ i.closing p o) (hi : i.family ≠ .can) :
    o.writesCan = false := by
  cases o with
  | transact _ _ | wait _ _ | pulse | recordMode _ | recordFailed | recordConstructed | checkHazard
  | setBuffer _ => rfl
  | recordCanMode m =>
    obtain ⟨h, -⟩ : i.closing p (.recordCanMode m) := ho.resolve_left id
    exact absurd (family_of_changesCanMode h) hi
  | recordCanReady m =>
    obtain ⟨h, -⟩ : i.closing p (.recordCanReady m) := ho.resolve_left id
    exact absurd (family_of_constructsCan h) hi
  | recordUnconfigured => exact absurd (family_of_constructsCan (ho.resolve_left id)) hi

theorem writesBuffer_eq_false (ho : i.during p o ∨ i.closing p o) (hi : i.family ≠ .codec) :
    o.writesBuffer = false := by
  cases o with
  | setBuffer bs =>
    obtain ⟨h, -⟩ : i.closing p (.setBuffer bs) := ho.resolve_left id
    exact absurd h hi
  | _ => rfl

theorem observed_eq_false (ho : i.during p o ∨ i.closing p o) (hi : i.family = .codec) :
    o.observed = false := by
  cases o with
  | transact dev out =>
    obtain ⟨h, -⟩ : i.during p (.transact dev out) := ho.resolve_right id
    exact absurd hi h
  | wait w n =>
    exact absurd hi (family_ne_codec_of_waits (ho.resolve_right id))
  | pulse =>
    have h : i.constructsRadio = true := ho.resolve_right id
    rw [family_of_constructsRadio h] at hi
    cases hi
  | _ => rfl

end Families

theorem State.sameRadio_refl (s : State) : s.sameRadio s := ⟨rfl, rfl, rfl, rfl⟩

theorem State.sameRadio_trans (a b c : State) (h : a.sameRadio b) (h' : b.sameRadio c) : a.sameRadio c := by
  obtain ⟨h1, h2, h3, h4⟩ := h
  obtain ⟨h1', h2', h3', h4'⟩ := h'
  exact ⟨h1'.trans h1, h2'.trans h2, h3'.trans h3, h4'.trans h4⟩

theorem State.sameCan_refl (s : State) : s.sameCan s := ⟨rfl, rfl⟩

theorem State.sameCan_trans (a b c : State) (h : a.sameCan b) (h' : b.sameCan c) : a.sameCan c := by
  obtain ⟨h1, h2⟩ := h
  obtain ⟨h1', h2'⟩ := h'
  exact ⟨h1'.trans h1, h2'.trans h2⟩

theorem State.sameBus_refl (s : State) : s.sameBus s := ⟨rfl, rfl, rfl, rfl, rfl⟩

theorem State.sameBus_trans (a b c : State) (h : a.sameBus b) (h' : b.sameBus c) : a.sameBus c := by
  obtain ⟨h1, h2, h3, h4, h5⟩ := h
  obtain ⟨h1', h2', h3', h4', h5'⟩ := h'
  exact ⟨h1'.trans h1, h2'.trans h2, h3'.trans h3, h4'.trans h4, h5'.trans h5⟩

section Frames

variable {i : Instr} {s t : State} (h : EndsIn i s (.next t))
include h

theorem EndsIn.sameRadio (hi : i.family ≠ .radio) : s.sameRadio t := by
  obtain ⟨u, st, data, hu, rfl⟩ := h.keeps State.sameRadio_refl State.sameRadio_trans
    fun u o ho => Operation.apply_sameRadio u (writesRadio_eq_false ho hi)
  exact hu

theorem EndsIn.sameCan (hi : i.family ≠ .can) : s.sameCan t := by
  obtain ⟨u, st, data, hu, rfl⟩ := h.keeps State.sameCan_refl State.sameCan_trans
    fun u o ho => Operation.apply_sameCan u (writesCan_eq_false ho hi)
  exact hu

theorem EndsIn.encBuf (hi : i.family ≠ .codec) : t.encBuf = s.encBuf := by
  obtain ⟨u, st, data, hu, rfl⟩ := h.keeps (R := fun s t => t.encBuf = s.encBuf) (fun _ => rfl)
    (fun _ _ _ hab hbc => hbc.trans hab)
    fun u o ho => Operation.apply_encBuf u (writesBuffer_eq_false ho hi)
  exact hu

theorem EndsIn.sameBus (hi : i.family = .codec) : s.sameBus t := by
  obtain ⟨u, st, data, hu, rfl⟩ := h.keeps State.sameBus_refl State.sameBus_trans
    fun u o ho => Operation.apply_sameBus u (observed_eq_false ho hi)
  exact hu

theorem EndsIn.ledLine : t.ledLine = s.ledLine := by
  obtain ⟨u, st, data, hu, rfl⟩ := h.keeps (R := fun s t => t.ledLine = s.ledLine) (fun _ => rfl)
    (fun _ _ _ hab hbc => hbc.trans hab) fun u o _ => Operation.apply_ledLine u
  exact hu

end Frames

/-- Settles O16: no operation of a family writes another's records, nor does the bookkeeping, an answer or a
transaction on its own. -/
theorem familiesIndependent : Obligations.FamiliesIndependent := by
  intro s t i hexec
  obtain ⟨⟨hget, hbus, helement⟩, h⟩ | ⟨rfl, data, h⟩ | ⟨hi, bytes, h⟩ | ⟨hi, dev, out, h⟩ := exec_forms i s
  · rw [hexec] at h
    refine ⟨h.ledLine, ?_⟩
    cases hi : i.family with
    | transport => exact ⟨h.sameRadio (by simp [hi]), h.sameCan (by simp [hi]), h.encBuf (by simp [hi])⟩
    | radio => exact ⟨h.sameCan (by simp [hi]), h.encBuf (by simp [hi])⟩
    | can => exact ⟨h.sameRadio (by simp [hi]), h.encBuf (by simp [hi])⟩
    | codec => exact ⟨h.sameRadio (by simp [hi]), h.sameCan (by simp [hi]), h.sameBus hi⟩
    | busFrame => exact absurd hi hbus
    | element => exact absurd hi helement
  · obtain rfl : s.answered _ = t := by simpa [h] using hexec
    exact ⟨rfl, s.sameRadio_refl, s.sameCan_refl, rfl⟩
  · obtain rfl : s.answered _ = t := by simpa [h] using hexec
    rw [hi]
    exact ⟨rfl, s.sameRadio_refl, s.sameCan_refl, s.sameBus_refl, rfl, rfl, rfl⟩
  · obtain rfl : s.afterTxn dev out = t := by simpa [h] using hexec
    rw [hi]
    simp [State.sameRadio, State.sameCan]

/-! ## Failed transactions (40_transport_and_control.md R136, 60_exceptions.md section 6) -/

/-- The observation grows by events of which none is a transaction that failed; nothing is answered yet. -/
def State.GoesOnTo (s t : State) : Prop :=
  ∃ es, t.trace = s.trace ++ es ∧ (∀ dev out, Event.txn dev out none ∉ es) ∧ t.outbox = s.outbox

theorem State.GoesOnTo.of_trace {s t : State} (h : t.trace = s.trace) (hout : t.outbox = s.outbox) :
    s.GoesOnTo t :=
  ⟨[], by simp [h], by simp, hout⟩

theorem State.GoesOnTo.trans (a b c : State) (h : a.GoesOnTo b) (h' : b.GoesOnTo c) : a.GoesOnTo c := by
  obtain ⟨es, htrace, hes, hout⟩ := h
  obtain ⟨es', htrace', hes', hout'⟩ := h'
  refine ⟨es ++ es', by rw [htrace', htrace, List.append_assoc], fun dev out hmem => ?_, hout'.trans hout⟩
  exact (List.mem_append.1 hmem).elim (hes dev out) (hes' dev out)

theorem Operation.apply_goesOnTo (s : State) (o : Operation) (h : o.GoesOn s) :
    s.GoesOnTo (o.apply s) := by
  cases o with
  | transact dev out =>
    refine ⟨[.txn dev out (s.receivedAt 0 dev out)], State.afterTxn_trace s dev out, ?_,
      State.afterTxn_outbox s dev out⟩
    intro dev' out' hmem
    injection List.mem_singleton.1 hmem with _ _ hnone
    exact h hnone.symm
  | wait w n => exact ⟨[.delay w n], rfl, by simp, rfl⟩
  | pulse =>
    by_cases hreset : s.params.caps.hasReset = true
    · refine ⟨[.pin .reset false, .delay .resetPulse s.params.resetPulse, .pin .reset true,
        .delay .resetSettle s.params.resetSettle], ?_, by simp, ?_⟩ <;>
      simp [Operation.apply, State.pulsed, hreset]
    · exact .of_trace (by simp [Operation.apply, State.pulsed, hreset])
        (by simp [Operation.apply, State.pulsed, hreset])
  | checkHazard => exact .of_trace (State.hazardChecked_trace s) (State.hazardChecked_outbox s)
  | recordMode _ | recordFailed | recordConstructed | recordCanMode _ | recordCanReady _
  | recordUnconfigured | setBuffer _ => exact .of_trace rfl rfl

theorem State.Does.goesOnTo {D : Operation → Prop} {s t : State} (h : s.Does D t) : s.GoesOnTo t :=
  h.keeps (fun _ => .of_trace rfl rfl) State.GoesOnTo.trans fun u o _ hgo => o.apply_goesOnTo u hgo

/-- How a command's events and status go together. -/
inductive FrameEnds (s t : State) : Prop
  | completed (es : List Event) (st : Status) (data : List Byte) (htrace : t.trace = s.trace ++ es)
      (hes : ∀ dev out, Event.txn dev out none ∉ es) (hst : st ≠ .busIoError)
      (hout : t.outbox = s.outbox ++ [.result st.code data])
  | failed (es : List Event) (dev : Device) (out : List Byte)
      (htrace : t.trace = s.trace ++ (es ++ [.txn dev out none]))
      (hes : ∀ dev out, Event.txn dev out none ∉ es)
      (hout : t.outbox = s.outbox ++ [.result Status.busIoError.code []])

theorem EndsIn.frameEnds {i : Instr} {s t : State} (h : EndsIn i s (.next t)) : FrameEnds s t := by
  cases h with
  | completed u st data hst hu =>
    obtain ⟨es, htrace, hes, hout⟩ := hu.goesOnTo
    exact .completed es st data htrace hes hst (by rw [State.ended_outbox, hout])
  | failed u hu =>
    obtain ⟨v, dev, out, hv, -, hfail, rfl⟩ := hu
    obtain ⟨es, htrace, hes, hout⟩ := hv.goesOnTo
    refine .failed es dev out ?_ hes (by rw [State.ended_outbox, State.afterTxn_outbox, hout])
    rw [State.ended_trace, State.afterTxn_trace, htrace, hfail, List.append_assoc]

theorem decodeCommand_error_ne_busIoError {f : List Byte} {st : Status}
    (h : decodeCommand f = .error (.status st)) : st ≠ .busIoError := by
  unfold decodeCommand at h
  repeat' split at h
  all_goals cases h
  all_goals decide

theorem step_frameEnds {s t : State} {f : List Byte} {rest : List Input}
    (hin : s.inbox = .command f :: rest) (h : step s = .next t) : FrameEnds (s.setInbox rest) t := by
  cases hdecode : decodeCommand f with
  | ok i =>
    rw [step_command_ok hin hdecode] at h
    by_cases hf : f = [0x03]
    · subst hf
      cases hdecode
      obtain rfl : State.answered _ _ = t := by simpa [exec_getStatus] using h
      exact .completed [] .ok _ (by simp) (by simp) (by decide) rfl
    · have hends := exec_endsIn (decodeCommand_bookkept hdecode hf) (s.setInbox rest)
      exact (h ▸ hends).frameEnds
  | error e =>
    obtain ⟨st, rfl⟩ := decodeCommand_error_status hdecode
    obtain rfl : ((s.setInbox rest).ended st []) = t := by
      simpa [step_command_error hin hdecode] using h
    exact .completed [] st [] (by simp) (by simp) (decodeCommand_error_ne_busIoError hdecode) rfl

/-- Settles O15: an answered transaction is no failed one, and after a failed one only the bookkeeping is
made. -/
theorem failedTransactionEndsCommand : Obligations.FailedTransactionEndsCommand := by
  intro s t f rest es hin hstep htrace
  cases step_frameEnds hin hstep with
  | completed es' st data htrace' hes hst hout =>
    obtain rfl : es = es' := List.append_cancel_left (htrace.symm.trans htrace')
    refine ⟨⟨?_, fun hbus => ?_⟩, ?_⟩
    · rintro ⟨dev, out, hmem⟩
      exact absurd hmem (hes dev out)
    · have hlast := List.append_cancel_left (hbus.symm.trans hout)
      injection hlast with hlast
      injection hlast with hcode _
      exact absurd (Status.code_injective hcode.symm) hst
    · rintro dev out before after rfl
      exact absurd (by simp) (hes dev out)
  | failed es' dev out htrace' hes hout =>
    obtain rfl : es = es' ++ [.txn dev out none] := List.append_cancel_left (htrace.symm.trans htrace')
    refine ⟨⟨fun _ => hout, fun _ => ⟨dev, out, by simp⟩⟩, ?_⟩
    intro dev' out' before after hsplit
    obtain rfl | ⟨init, last, rfl⟩ := List.eq_nil_or_concat after
    · rfl
    · rw [List.concat_eq_append, ← List.cons_append, ← List.append_assoc] at hsplit
      obtain ⟨rfl, -⟩ := List.append_inj' hsplit rfl
      exact absurd (by simp) (hes dev' out')

end Sys2Proof.Machine
end

section
/-! Good states (10_state.md): the state after reset is good, every step keeps a good state good, and only the
core's reset clears a hazard, a fault or a failure (70_reset_and_hazards.md R330). -/

namespace Sys2Proof

theorem eq_zero_or_one_of_flagLegal {b : Byte} (h : flagLegal b = true) : b = 0 ∨ b = 1 := by
  revert b
  decide

/-- The parameters of the state after reset meet their constraints. -/
theorem Config.params_wf : Config.params.wf = true := by
  have hnumbers : 1 ≤ Config.params.txPollBudget ∧ 1 ≤ Config.params.rxPollIntervalMs ∧
      10 ≤ Config.params.resetSettle ∧ 0 < Config.params.radioXtalHz ∧
      -32512 ≤ Config.params.rssiOffset ∧ Config.params.rssiOffset ≤ 32768 ∧
      Config.params.bwTable ≠ [] ∧ (Config.params.bwTable.map Prod.fst).Pairwise (· < ·) ∧
      Config.params.maxPayload ≤ 255 ∧ Config.params.encCap ≤ 255 :=
    ⟨Nat.le_add_left _ _, Nat.le_add_left _ _, Nat.le_add_right _ _, by decide, by decide, by decide,
      by decide, by decide, by decide, by decide⟩
  have hcodes : Config.params.lppCodes.distinct = true := by decide
  have hframing : Config.params.framing.wf = true := by decide
  have hradio : Config.params.radio.layout.wf = true := by decide
  have hcan : Config.params.can.layout.wf = true := by decide
  have hmaps : Config.params.mapsFit = true := by decide
  have hindices : Config.params.canTxMailbox < Config.params.framing.canRts.length ∧
      Config.params.canRxBuffer < Config.params.can.layout.rxFull.length := by decide
  rw [Params.wf, decide_eq_true hnumbers, hcodes, hframing, hradio, hcan, hmaps, decide_eq_true hindices]
  rfl

end Sys2Proof

namespace Sys2Proof.Machine

open Sys2Proof

/-! ## The bookkeeping -/

/-- A fault register never loses a bit. -/
theorem and_recordFault (faults : BitVec 16) (st : Status) :
    faults &&& recordFault faults st = faults := by
  unfold recordFault
  split
  · ext i hi
    cases h : faults[i] <;> simp [h]
  · exact BitVec.and_self

/-- No fault code is above 0x1B, so the bookkeeping sets no reserved bit. -/
theorem recordFault_reserved {faults : BitVec 16} (h : faults.extractLsb' 12 4 = 0) (st : Status) :
    (recordFault faults st).extractLsb' 12 4 = 0 := by
  have hbit : ((1 : BitVec 16) <<< (st.code.toNat - 0x10)).extractLsb' 12 4 = 0 := by
    cases st <;> decide
  unfold recordFault
  split
  · rw [BitVec.extractLsb'_or, h, hbit]
    rfl
  · exact h

theorem State.Good.ended {s : State} (h : s.Good) (st : Status) (data : List Byte) :
    (s.ended st data).Good :=
  { h with
    faults := recordFault_reserved h.faults st
    lastStatus := List.mem_map_of_mem st.mem_all }

theorem State.Good.answered {s : State} (h : s.Good) (o : Output) : (s.answered o).Good := { h with }

theorem State.Good.setInbox {s : State} (h : s.Good) (is : List Input) : (s.setInbox is).Good := { h with }

theorem State.Good.afterTxn {s : State} (h : s.Good) (dev : Device) (out : List Byte) :
    (s.afterTxn dev out).Good := by
  obtain ⟨hradio, hcan⟩ := h.selects
  cases dev with
  | radio => exact { h with selects := ⟨rfl, hcan⟩ }
  | can => exact { h with selects := ⟨hradio, rfl⟩ }

/-- The reset pulse ends with the line released. -/
theorem State.Good.pulsed {s : State} (h : s.Good) : s.pulsed.Good := by
  obtain ⟨-, hled⟩ := h.lines
  by_cases hreset : s.params.caps.hasReset = true
  · rw [State.pulsed, if_pos hreset]
    exact
      { params := by simpa using h.params
        selects := by simpa using h.selects
        lines := by simpa using hled
        encBuf := by simpa using h.encBuf
        faults := by simpa using h.faults
        lastStatus := by simpa using h.lastStatus
        canMode := by simpa using h.canMode
        canReady := by simpa using h.canReady
        radioUninit := by simpa using h.radioUninit
        hazard := by simpa using h.hazard }
  · rwa [State.pulsed, if_neg hreset]

/-- A hazard is recorded on a Ready radio alone. -/
theorem State.Good.hazardChecked {s : State} (h : s.Good) (hready : s.radioLife = .ready) :
    s.hazardChecked.Good := by
  unfold State.hazardChecked
  split
  · exact h
  · refine { h with hazard := fun _ huninit => ?_ }
    exact nomatch hready.symm.trans huninit

theorem State.Good.coreReset {s : State} (h : s.Good) : s.coreReset.Good where
  params := h.params
  selects := ⟨rfl, rfl⟩
  lines := ⟨rfl, rfl⟩
  encBuf := Nat.zero_le _
  faults := by simp [State.coreReset]
  lastStatus := List.mem_map_of_mem Status.ok.mem_all
  canMode := .inr rfl
  canReady := fun hready => by cases hready
  radioUninit := fun _ => rfl
  hazard := fun hhazard => by cases hhazard

/-- Settles O10. -/
theorem resetIsGood : Obligations.ResetIsGood where
  params := Config.params_wf
  selects := ⟨rfl, rfl⟩
  lines := ⟨rfl, rfl⟩
  encBuf := Nat.zero_le _
  faults := rfl
  lastStatus := List.mem_map_of_mem Status.ok.mem_all
  canMode := .inr rfl
  canReady := fun hready => by cases hready
  radioUninit := fun _ => rfl
  hazard := fun hhazard => by cases hhazard

/-! ## Operations and the radio's lifecycle (41_radio.md R150, R167) -/

theorem constructsRadio_eq_false_of_configures {i : Instr} (h : i.configures = true) :
    i.constructsRadio = false := by
  cases i <;> cases h
  all_goals rfl

/-- `RADIO_INIT` records no mode but Sleep before its last step. -/
theorem mode_eq_sleep_of_constructsRadio {i : Instr} {m : RadioState} (hi : i.constructsRadio = true)
    (hm : i.recordsOnTheWay m = true ∨ i.recordsLast m = true) : m = .sleep := by
  cases i with
  | radioInit freq bw sf cr preamble sync txpow crc =>
    have hsleep : (m == .sleep) = true := hm.resolve_right Bool.false_ne_true
    simpa using hsleep
  | _ => cases hi

/-- No command but `RADIO_INIT` writes the radio's lifecycle. -/
theorem Operation.apply_radioLife {p : Params} {i : Instr} {o : Operation} (hi : i.constructsRadio = false)
    (ho : i.during p o ∨ i.closing p o) (s : State) : (o.apply s).radioLife = s.radioLife := by
  have hnot : ¬ i.constructsRadio = true := by simp [hi]
  cases o with
  | recordFailed | recordConstructed =>
    have h : i.constructsRadio = true := ho.resolve_left id
    exact absurd h hnot
  | pulse =>
    have h : i.constructsRadio = true := ho.resolve_right id
    exact absurd h hnot
  | transact _ _ | wait _ _ | recordMode _ | checkHazard | recordCanMode _ | recordCanReady _
  | recordUnconfigured | setBuffer _ => simp [Operation.apply]

/-- A command that the gate lets pass: the radio is Ready, or the command constructs it, or is no radio
command. -/
def Instr.MayRun (i : Instr) (life : RadioLife) : Prop :=
  life = .ready ∨ i.constructsRadio = true ∨ i.family ≠ .radio

theorem Operation.apply_mayRun {p : Params} {i : Instr} {o : Operation} {s : State}
    (h : Instr.MayRun i s.radioLife) (ho : i.during p o ∨ i.closing p o) :
    Instr.MayRun i (o.apply s).radioLife := by
  cases hi : i.constructsRadio with
  | true => exact .inr (.inl hi)
  | false => rwa [Operation.apply_radioLife hi ho]

/-- Every operation that an instruction may do keeps a good state good. -/
theorem Operation.apply_good {i : Instr} {o : Operation} {s : State} (h : s.Good)
    (hrun : Instr.MayRun i s.radioLife) (ho : i.during s.params o ∨ i.closing s.params o) :
    (o.apply s).Good := by
  cases o with
  | transact dev out => exact h.afterTxn dev out
  | wait w n => exact { h with }
  | pulse => exact h.pulsed
  | recordMode m =>
    have hm : i.recordsOnTheWay m = true ∨ i.recordsLast m = true := ho
    refine { h with radioUninit := fun huninit => ?_ }
    have huninit : s.radioLife = .uninit := huninit
    obtain hready | hconstructs | hfamily := hrun
    · rw [huninit] at hready
      cases hready
    · exact mode_eq_sleep_of_constructsRadio hconstructs hm
    · exact absurd (hm.elim family_of_recordsOnTheWay family_of_recordsLast) hfamily
  | recordFailed =>
    exact { h with radioUninit := (fun h => nomatch h), hazard := (fun _ h => nomatch h) }
  | recordConstructed =>
    exact { h with radioUninit := (fun h => nomatch h), hazard := (fun _ h => nomatch h) }
  | checkHazard =>
    have hi : i.configures = true := ho.resolve_right id
    have hready : s.radioLife = .ready := by
      obtain hready | hconstructs | hfamily := hrun
      · exact hready
      · rw [constructsRadio_eq_false_of_configures hi] at hconstructs
        cases hconstructs
      · exact absurd (family_of_configures hi) hfamily
    exact h.hazardChecked hready
  | recordCanMode m =>
    obtain ⟨-, hm⟩ : i.closing s.params (.recordCanMode m) := ho.resolve_left id
    exact { h with canMode := .inl hm, canReady := fun _ => hm }
  | recordCanReady m =>
    obtain ⟨-, hm⟩ : i.closing s.params (.recordCanReady m) := ho.resolve_left id
    exact { h with canMode := .inl hm, canReady := fun _ => hm }
  | recordUnconfigured => exact { h with canReady := fun hready => by cases hready }
  | setBuffer bs =>
    obtain ⟨-, hbs⟩ : i.closing s.params (.setBuffer bs) := ho.resolve_left id
    exact { h with encBuf := hbs }

/-! ## Refused radio commands (41_radio.md R150) -/

/-- A radio command that may not run ends at a check, in the state it began in. -/
theorem exec_radio_refused {i : Instr} {s : State} (h : ¬ Instr.MayRun i s.radioLife) :
    ∃ st, exec i s = .next (s.ended st []) := by
  obtain ⟨hlife, hconstructs, hfamily⟩ :
      s.radioLife ≠ .ready ∧ ¬ i.constructsRadio = true ∧ i.family = .radio := by
    simpa only [Instr.MayRun, not_or, not_not] using h
  obtain ⟨st, hgate⟩ : ∃ st, radioGate s = .error st s := by
    cases hcase : s.radioLife with
    | uninit => exact ⟨_, radioGate_uninit hcase⟩
    | ready => exact absurd hcase hlife
    | failed => exact ⟨_, radioGate_failed hcase⟩
  by_cases hgated : i.radioGated s.params = true
  · exact ⟨st, exec_radioGated_of_gate_error hgated hgate⟩
  cases i with
  | radioTransmit payload =>
    have hlen : ¬ decide (0 < payload.length ∧ payload.length ≤ s.params.maxPayload) = true := hgated
    rw [decide_eq_true_eq] at hlen
    obtain ⟨htransmit, -⟩ := lengthErrors s
    exact ⟨.lengthError, htransmit payload (by omega)⟩
  | radioSetCrc crc =>
    have hcrc : flagLegal crc = false := by
      cases hflag : flagLegal crc with
      | false => rfl
      | true =>
        have hbeq : (crc == 0 || crc == 1) = true := by simpa using eq_zero_or_one_of_flagLegal hflag
        exact absurd hbeq hgated
    exact ⟨.illegalOperand, runCommand_require_error hcrc _ _ s⟩
  | radioInit freq bw sf cr preamble sync txpow crc => exact absurd rfl hconstructs
  | radioStartRx | radioPollRx | radioBlockingRx _ | radioSleep | radioStandby | radioSetFrequency _
  | radioSetBandwidth _ | radioSetLnaAgc | radioSetTxPower _ | radioSetSf _ | radioSetCr _
  | radioSetPreamble _ | radioSetSyncWord _ => exact absurd rfl hgated
  | _ => cases hfamily

/-- `RADIO_INIT` on a Failed radio ends at a check too. -/
theorem exec_constructsRadio_failed {i : Instr} {s : State} (hi : i.constructsRadio = true)
    (h : s.radioLife = .failed) : ∃ st, exec i s = .next (s.ended st []) := by
  cases i with
  | radioInit freq bw sf cr preamble sync txpow crc =>
    cases hflag : flagLegal crc with
    | false => exact ⟨.illegalOperand, runCommand_require_error hflag _ _ s⟩
    | true =>
      exact ⟨.deviceNotFound,
        exec_radioInit_failed (eq_zero_or_one_of_flagLegal hflag) h freq bw sf cr preamble sync txpow⟩
  | _ => cases hi

theorem EndsIn.good {i : Instr} {s t : State} (h : EndsIn i s (.next t)) (hgood : s.Good)
    (hrun : Instr.MayRun i s.radioLife) : t.Good := by
  obtain ⟨u, st, data, hu, rfl⟩ := h.keeps
    (R := fun a b => a.params = s.params → a.Good → Instr.MayRun i a.radioLife →
      b.params = s.params ∧ b.Good ∧ Instr.MayRun i b.radioLife)
    (fun _ hp hg hr => ⟨hp, hg, hr⟩)
    (fun a b c hab hbc hp hg hr =>
      let ⟨hp', hg', hr'⟩ := hab hp hg hr
      hbc hp' hg' hr')
    fun u o ho hp hg hr => ⟨(o.apply_params u).trans hp,
      Operation.apply_good hg hr (hp ▸ ho), Operation.apply_mayRun hr ho⟩
  obtain ⟨-, hgood', -⟩ := hu rfl hgood hrun
  exact hgood'.ended st data

theorem exec_good {i : Instr} {s t : State} (h : exec i s = .next t) (hgood : s.Good) : t.Good := by
  by_cases hrun : Instr.MayRun i s.radioLife
  · obtain ⟨-, hends⟩ | ⟨-, data, hends⟩ | ⟨-, bytes, hends⟩ | ⟨-, dev, out, hends⟩ := exec_forms i s
    · exact (h ▸ hends).good hgood hrun
    · obtain rfl : s.answered _ = t := by simpa [hends] using h
      exact hgood.answered _
    · obtain rfl : s.answered _ = t := by simpa [hends] using h
      exact hgood.answered _
    · obtain rfl : s.afterTxn dev out = t := by simpa [hends] using h
      exact hgood.afterTxn dev out
  · obtain ⟨st, hrefused⟩ := exec_radio_refused hrun
    obtain rfl : s.ended st [] = t := by simpa [hrefused] using h
    exact hgood.ended st []

/-- Settles O9: every operation that a command may do keeps the invariant where the gate has let the command
pass; where it has not, the state changes by the bookkeeping alone. -/
theorem stepKeepsGood : Obligations.StepKeepsGood := by
  intro s t hgood hstep
  obtain ⟨-, rfl⟩ | ⟨x, rest, -, ⟨-, rfl⟩ | ⟨-, ⟨i, hexec⟩ | ⟨st, rfl⟩⟩⟩ := step_forms hstep
  · exact hgood
  · exact (hgood.setInbox rest).coreReset
  · exact exec_good hexec (hgood.setInbox rest)
  · exact (hgood.setInbox rest).ended st []

/-! ## What only the core's reset clears (70_reset_and_hazards.md R330) -/

/-- A hazard stays recorded, faults stay recorded, and a Failed radio stays Failed. -/
def State.Remembers (s t : State) : Prop :=
  (s.rwHazard = true → t.rwHazard = true) ∧ s.faults &&& t.faults = s.faults ∧
    (s.radioLife = .failed → t.radioLife = .failed)

theorem State.remembers_refl (s : State) : s.Remembers s := ⟨id, BitVec.and_self, id⟩

theorem State.remembers_ended (s : State) (st : Status) (data : List Byte) :
    s.Remembers (s.ended st data) :=
  ⟨id, and_recordFault s.faults st, id⟩

theorem State.remembers_afterTxn (s : State) (dev : Device) (out : List Byte) :
    s.Remembers (s.afterTxn dev out) := by
  simp [State.Remembers]

/-- No operation of a command clears the hazard flag or touches the fault register. -/
theorem Operation.apply_hazard_faults (s : State) (o : Operation) :
    (s.rwHazard = true → (o.apply s).rwHazard = true) ∧ (o.apply s).faults = s.faults := by
  cases o with
  | pulse =>
    simp only [Operation.apply, State.pulsed]
    split <;> simp
  | checkHazard =>
    simp only [Operation.apply, State.hazardChecked]
    split
    · exact ⟨id, rfl⟩
    · exact ⟨fun _ => rfl, rfl⟩
  | transact _ _ | wait _ _ | recordMode _ | recordFailed | recordConstructed | recordCanMode _
  | recordCanReady _ | recordUnconfigured | setBuffer _ => simp [Operation.apply]

theorem EndsIn.hazard_faults {i : Instr} {s t : State} (h : EndsIn i s (.next t)) :
    (s.rwHazard = true → t.rwHazard = true) ∧ s.faults &&& t.faults = s.faults := by
  obtain ⟨u, st, data, ⟨hhazard, hfaults⟩, rfl⟩ := h.keeps
    (R := fun a b => (a.rwHazard = true → b.rwHazard = true) ∧ b.faults = a.faults) (fun _ => ⟨id, rfl⟩)
    (fun _ _ _ ⟨hab, hab'⟩ ⟨hbc, hbc'⟩ => ⟨hbc ∘ hab, hbc'.trans hab'⟩)
    fun u o _ => o.apply_hazard_faults u
  exact ⟨hhazard, by rw [State.ended_faults, hfaults, and_recordFault]⟩

/-- A command leaves a Failed radio Failed: only `RADIO_INIT` writes the lifecycle, and it is refused. -/
theorem exec_radioLife_failed {i : Instr} {s t : State} (h : exec i s = .next t)
    (hends : EndsIn i s (.next t)) (hfailed : s.radioLife = .failed) : t.radioLife = .failed := by
  by_cases hi : i.constructsRadio = true
  · obtain ⟨st, hrefused⟩ := exec_constructsRadio_failed hi hfailed
    obtain rfl : s.ended st [] = t := by simpa [hrefused] using h
    exact hfailed
  · obtain ⟨u, st, data, hu, rfl⟩ := hends.keeps (R := fun a b => b.radioLife = a.radioLife) (fun _ => rfl)
      (fun _ _ _ hab hbc => hbc.trans hab)
      fun u o ho => Operation.apply_radioLife (Bool.not_eq_true _ ▸ hi) ho u
    exact hu.trans hfailed

theorem exec_remembers {i : Instr} {s t : State} (h : exec i s = .next t) : s.Remembers t := by
  obtain ⟨-, hends⟩ | ⟨-, data, hends⟩ | ⟨-, bytes, hends⟩ | ⟨-, dev, out, hends⟩ := exec_forms i s
  · rw [h] at hends
    obtain ⟨hhazard, hfaults⟩ := hends.hazard_faults
    exact ⟨hhazard, hfaults, exec_radioLife_failed h hends⟩
  · obtain rfl : s.answered _ = t := by simpa [hends] using h
    exact s.remembers_refl
  · obtain rfl : s.answered _ = t := by simpa [hends] using h
    exact s.remembers_refl
  · obtain rfl : s.afterTxn dev out = t := by simpa [hends] using h
    exact s.remembers_afterTxn dev out

/-- Settles O8. -/
theorem resetRule : Obligations.ResetRule := by
  refine ⟨fun s rest hin => ?reset, ?initial, fun s t hnot hstep => ?other⟩
  case reset =>
    refine ⟨(s.setInbox rest).coreReset, by simp [step, hin, State.decode, decodeInput], ?_⟩
    simp [State.coreReset]
  case initial =>
    rintro r rfl
    simp [State.reset]
  case other =>
    obtain ⟨-, rfl⟩ | ⟨x, rest, hin, ⟨rfl, -⟩ | ⟨-, ⟨i, hexec⟩ | ⟨st, rfl⟩⟩⟩ := step_forms hstep
    · exact t.remembers_refl
    · exact absurd hin (hnot rest)
    · exact exec_remembers (s := s.setInbox rest) hexec
    · exact (s.setInbox rest).remembers_ended st []

end Sys2Proof.Machine
end

section
/-! How long a command runs, and where it leaves the radio: bounds on its transactions and waits
(70_reset_and_hazards.md section 4), the radio's state machine (41_radio.md section 3), and what a bus error
leaves recorded (60_exceptions.md section 6). -/

namespace Sys2Proof.Machine

open Sys2Proof

/-! ## Bounds on transactions -/

/-- A step makes at most `n` transactions. -/
def Act.AtMost {α : Type} (p : Params) (n : Nat) (x : Act α) : Prop :=
  ∀ s, s.params = p → (finalState (x s)).params = p ∧ (finalState (x s)).draws ≤ s.draws + n

section AtMost

variable {p : Params} {α β : Type}

theorem Act.AtMost.mono {x : Act α} {m n : Nat} (h : x.AtMost p m) (hmn : m ≤ n) : x.AtMost p n :=
  fun s hs =>
    let ⟨hparams, hdraws⟩ := h s hs
    ⟨hparams, hdraws.trans (Nat.add_le_add_left hmn _)⟩

theorem Act.AtMost.bind {x : Act α} {f : α → Act β} {m n : Nat} (hx : x.AtMost p m)
    (hf : ∀ a, (f a).AtMost p n) : (x >>= f).AtMost p (m + n) := by
  intro s hs
  obtain ⟨hparams, hdraws⟩ := hx s hs
  rw [act_bind]
  cases hxs : x s with
  | ok a t =>
    rw [hxs] at hparams hdraws
    obtain ⟨hparams', hdraws'⟩ := hf a t hparams
    exact ⟨hparams', hdraws'.trans (by
      have : t.draws ≤ s.draws + m := hdraws
      omega)⟩
  | error e t =>
    rw [hxs] at hparams hdraws
    exact ⟨hparams, hdraws.trans (by omega)⟩

theorem atMost_withParams {f : Params → Act α} {n : Nat} (h : (f p).AtMost p n) :
    (params >>= f).AtMost p n := by
  intro s hs
  obtain rfl := hs
  exact h s rfl

theorem Act.AtMost.ite {c : Prop} [Decidable c] {x y : Act α} {n : Nat} (hx : x.AtMost p n)
    (hy : y.AtMost p n) : (if c then x else y).AtMost p n := by
  split
  · exact hx
  · exact hy

theorem atMost_pure (a : α) : (pure a : Act α).AtMost p 0 := fun _ hs => ⟨hs, Nat.le_refl _⟩

theorem Act.Checks.atMost {x : Act α} (h : x.Checks) : x.AtMost p 0 := by
  intro s hs
  obtain ⟨a, hx⟩ | ⟨e, -, hx⟩ := h s <;> rw [hx] <;> exact ⟨hs, Nat.le_refl _⟩

theorem atMost_update {f : State → State} (hparams : ∀ s, (f s).params = s.params)
    (hdraws : ∀ s, (f s).draws = s.draws) : (update f).AtMost p 0 :=
  fun s hs => ⟨(hparams s).trans hs, (hdraws s).le⟩

theorem atMost_txn (dev : Device) (out : List Byte) : (txn dev out).AtMost p 1 := by
  intro s hs
  obtain ⟨ins, -, h⟩ | ⟨-, h⟩ := txn_cases dev out s <;> rw [h] <;>
    exact ⟨(s.afterTxn_params dev out).trans hs, (s.afterTxn_draws dev out).le⟩

theorem atMost_busWrite (dev : Device) (a v : Byte) : (busWrite dev a v).AtMost p 1 :=
  atMost_withParams <| (atMost_txn _ _).bind fun _ => atMost_pure _

theorem atMost_busRead (dev : Device) (a : Byte) : (busRead dev a).AtMost p 1 :=
  atMost_withParams <| (atMost_txn _ _).bind fun _ => atMost_pure _

theorem atMost_radioWrite (reg : RadioMap → Byte) (v : Byte) : (radioWrite reg v).AtMost p 1 :=
  atMost_withParams <| atMost_busWrite _ _ _

theorem atMost_radioRead (reg : RadioMap → Byte) : (radioRead reg).AtMost p 1 :=
  atMost_withParams <| atMost_busRead _ _

theorem atMost_canWrite (reg : CanMap → Byte) (v : Byte) : (canWrite reg v).AtMost p 1 :=
  atMost_withParams <| atMost_busWrite _ _ _

theorem atMost_canRead (reg : CanMap → Byte) : (canRead reg).AtMost p 1 :=
  atMost_withParams <| atMost_busRead _ _

theorem atMost_recordMode (m : RadioState) : (update (State.setRadioState · m)).AtMost p 0 :=
  atMost_update (fun _ => rfl) fun _ => rfl

theorem atMost_setMode (m : RadioState) : (setMode m).AtMost p 1 :=
  atMost_withParams <| (atMost_radioWrite _ _).bind fun _ => atMost_recordMode m

theorem atMost_resetFifoTx : resetFifoTx.AtMost p 1 := atMost_withParams <| atMost_radioWrite _ _

theorem atMost_resetFifoRx : resetFifoRx.AtMost p 2 :=
  atMost_withParams <| (atMost_radioWrite _ _).bind fun _ => atMost_radioWrite _ _

theorem atMost_restartRx : restartRx.AtMost p 3 := atMost_resetFifoRx.bind fun _ => atMost_setMode _

theorem atMost_writeFifo (bs : List Byte) : (writeFifo bs).AtMost p bs.length := by
  induction bs with
  | nil => exact atMost_pure ()
  | cons b bs ih =>
    exact ((atMost_radioWrite _ b).bind fun _ => ih).mono (by rw [List.length_cons]; omega)

theorem atMost_readFifo (n : Nat) : (readFifo n).AtMost p n := by
  induction n with
  | zero => exact atMost_pure []
  | succ n ih =>
    exact ((atMost_radioRead _).bind fun _ => ih.bind fun _ => atMost_pure _).mono (by omega)

theorem atMost_readPacket : readPacket.AtMost p 258 :=
  ((atMost_radioRead _).bind fun n => (atMost_radioRead _).bind fun _ =>
    (atMost_radioWrite _ _).bind fun _ =>
    ((atMost_readFifo n.toNat).mono (Nat.le_of_lt_succ n.isLt)).bind fun _ => atMost_pure _).mono
      (by decide)

theorem atMost_delay (w : Wait) (n : Nat) : (delay w n).AtMost p 0 :=
  atMost_update (fun _ => rfl) fun _ => rfl

theorem atMost_pollTxDone (n : Nat) : (pollTxDone n).AtMost p n := by
  induction n with
  | zero => exact atMost_pure false
  | succ n ih =>
    refine Act.AtMost.mono (atMost_withParams <| (atMost_radioRead _).bind fun _ => (?_ : Act.AtMost p n _))
      (by omega)
    exact Act.AtMost.ite ((atMost_pure _).mono (Nat.zero_le _)) <|
      Act.AtMost.ite ((atMost_pure _).mono (Nat.zero_le _))
        (((atMost_delay _ _).bind fun _ => ih).mono (by omega))

theorem atMost_pollRxDone (n : Nat) : (pollRxDone n).AtMost p n := by
  induction n with
  | zero => exact atMost_pure none
  | succ n ih =>
    refine Act.AtMost.mono (atMost_withParams <| (atMost_radioRead _).bind fun _ => (?_ : Act.AtMost p n _))
      (by omega)
    exact Act.AtMost.ite ((atMost_pure _).mono (Nat.zero_le _)) <|
      Act.AtMost.ite ((atMost_pure _).mono (Nat.zero_le _))
        (((atMost_delay _ _).bind fun _ => ih).mono (by omega))

theorem atMost_readCanBytes (as : List Byte) : (readCanBytes as).AtMost p as.length := by
  induction as with
  | nil => exact atMost_pure []
  | cons a as ih =>
    exact ((atMost_busRead _ _).bind fun _ => ih.bind fun _ => atMost_pure _).mono
      (by rw [List.length_cons]; omega)

theorem atMost_transmitTail (budget : Nat) (clear : Byte) :
    (transmitTail budget clear).AtMost p (budget + 2) :=
  (atMost_pollTxDone _).bind fun _ => (atMost_radioWrite _ _).bind (n := 1) fun _ => Act.AtMost.ite
    (((atMost_recordMode .standby).bind fun _ => atMost_pure _).mono (by omega))
    ((atMost_setMode _).bind fun _ => atMost_pure _)

theorem atMost_blockingRxTail (l : RadioLayout) (budget : Nat) :
    (blockingRxTail l budget).AtMost p (budget + 260) := by
  have hend (v : Byte) (r : Status × List Byte) :
      Act.AtMost p 2 (do radioWrite RadioMap.irqFlags v; setMode .standby; pure r) :=
    (atMost_radioWrite _ _).bind fun _ => (atMost_setMode _).bind fun _ => atMost_pure _
  refine (atMost_pollRxDone _).bind fun event => ?_
  cases event with
  | none => exact (hend _ _).mono (by decide)
  | some f =>
    exact Act.AtMost.ite ((hend _ _).mono (by decide)) (atMost_readPacket.bind fun _ => hend _ _)

end AtMost

theorem Act.AtMost.runCommand_draws {body : Act (Status × List Byte)} {s t : State} {n : Nat}
    (h : body.AtMost s.params n) (hrun : runCommand body s = .next t) : t.draws ≤ s.draws + n := by
  obtain ⟨-, hdraws⟩ := h s rfl
  rw [runCommand_next] at hrun
  injection hrun with hrun
  obtain ⟨r, u, hu, he⟩ | ⟨e, u, hu, he⟩ := s.afterCommand_cases body <;>
    rw [← hrun, he, State.ended_draws] <;> rw [hu] at hdraws <;> exact hdraws

/-! ## Bounds on waits -/

/-- The observation grows by events of which none is a wait. -/
def State.NeverWaits (s t : State) : Prop :=
  ∃ es, t.trace = s.trace ++ es ∧ es.any Event.isDelay = false

theorem State.NeverWaits.of_trace {s t : State} (h : t.trace = s.trace) : s.NeverWaits t :=
  ⟨[], by simp [h], rfl⟩

theorem State.NeverWaits.trans (a b c : State) (h : a.NeverWaits b) (h' : b.NeverWaits c) :
    a.NeverWaits c := by
  obtain ⟨es, htrace, hes⟩ := h
  obtain ⟨es', htrace', hes'⟩ := h'
  exact ⟨es ++ es', by rw [htrace', htrace, List.append_assoc], by rw [List.any_append, hes, hes']; rfl⟩

theorem Operation.apply_neverWaits {p : Params} {i : Instr} {o : Operation} (hwaits : i.waits = false)
    (hinit : i.constructsRadio = false) (ho : i.during p o ∨ i.closing p o) (s : State) :
    s.NeverWaits (o.apply s) := by
  cases o with
  | transact dev out =>
    exact ⟨[.txn dev out (s.receivedAt 0 dev out)], State.afterTxn_trace s dev out, rfl⟩
  | wait w n =>
    have h : i.waits = true := ho.resolve_right id
    rw [hwaits] at h
    cases h
  | pulse =>
    have h : i.constructsRadio = true := ho.resolve_right id
    rw [hinit] at h
    cases h
  | checkHazard => exact .of_trace (State.hazardChecked_trace s)
  | recordMode _ | recordFailed | recordConstructed | recordCanMode _ | recordCanReady _
  | recordUnconfigured | setBuffer _ => exact .of_trace rfl

theorem EndsIn.neverWaits {i : Instr} {s t : State} (h : EndsIn i s (.next t)) (hwaits : i.waits = false)
    (hinit : i.constructsRadio = false) : s.NeverWaits t := by
  obtain ⟨u, st, data, ⟨es, htrace, hes⟩, rfl⟩ := h.keeps (fun _ => .of_trace rfl)
    State.NeverWaits.trans fun u o ho => Operation.apply_neverWaits hwaits hinit ho u
  exact ⟨es, htrace, hes⟩

/-- Settles O17: the transactions of each command are counted along its steps. -/
theorem blockingIsBounded : Obligations.BlockingIsBounded := by
  have hnone (s t : State) (i : Instr) (es : List Event) (hi : i.bookkept) (hwaits : i.waits = false)
      (hinit : i.constructsRadio = false) (hexec : exec i s = .next t) (htrace : t.trace = s.trace ++ es) :
      es.any Event.isDelay = false := by
    obtain ⟨es', htrace', hes⟩ := (hexec ▸ exec_endsIn hi s).neverWaits hwaits hinit
    rwa [List.append_cancel_left (htrace.symm.trans htrace')]
  refine ⟨fun s t payload hexec => ?transmit, fun s t ms hexec => ?blockingRx, ?others⟩
  case transmit =>
    have hdraws := Act.AtMost.runCommand_draws (n := payload.length + s.params.txPollBudget + 5) ?_ hexec
    · omega
    · exact (atMost_withParams <| (checks_require (by decide)).atMost.bind fun _ =>
        checks_radioGate.atMost.bind fun _ => (checks_requireRadioState _).atMost.bind fun _ =>
        atMost_resetFifoTx.bind fun _ => (atMost_writeFifo payload).bind fun _ =>
        (atMost_radioWrite _ _).bind fun _ => (atMost_setMode _).bind fun _ =>
        atMost_transmitTail _ _).mono (by omega)
  case blockingRx =>
    rw [Nat.add_assoc]
    refine Act.AtMost.runCommand_draws (n := ms.toNat / s.params.rxPollIntervalMs + 264) ?_ hexec
    exact (checks_radioGate.atMost.bind fun _ => (checks_requireRadioState _).atMost.bind fun _ =>
      atMost_resetFifoRx.bind fun _ => (atMost_setMode _).bind fun _ =>
      atMost_withParams <| atMost_blockingRxTail _ _).mono (by omega)
  case others =>
    rintro s t i es (rfl | rfl) hexec htrace
    · refine ⟨hnone s t _ es (by simp [Instr.bookkept, Instr.family]) rfl rfl hexec htrace,
        Act.AtMost.runCommand_draws ?_ hexec⟩
      refine Act.AtMost.mono (m := 0 + (0 + (1 + 264))) ?_ (by decide)
      refine checks_radioGate.atMost.bind fun _ => (checks_requireRadioState _).atMost.bind fun _ =>
        atMost_withParams <| (atMost_radioRead _).bind fun f =>
        Act.AtMost.ite (Act.AtMost.ite ?dropped ?received) ((atMost_pure _).mono (Nat.zero_le _))
      case dropped =>
        exact ((atMost_radioWrite _ _).bind fun _ => atMost_restartRx.bind fun _ => atMost_pure _).mono
          (by decide)
      case received =>
        exact ((atMost_radioRead _).bind fun _ => (atMost_radioRead _).bind fun _ =>
          atMost_readPacket.bind fun _ => (atMost_radioWrite _ _).bind fun _ =>
          atMost_restartRx.bind fun _ => atMost_pure _).mono (by decide)
    · refine ⟨hnone s t _ es (by simp [Instr.bookkept, Instr.family]) rfl rfl hexec htrace,
        Act.AtMost.runCommand_draws ?_ hexec⟩
      refine Act.AtMost.mono (m := 0 + (1 + 15)) ?_ (by decide)
      refine checks_canGate.atMost.bind fun _ => atMost_withParams <|
        (atMost_canRead _).bind fun f => Act.AtMost.ite ?full ((atMost_pure _).mono (Nat.zero_le _))
      have hids : (s.params.idAddrs s.params.rxb).length ≤ 4 := by
        rw [Params.length_idAddrs]
        cases s.params.canIdMode <;> decide
      have hdata (raw : Byte) : (s.params.dataAddrs s.params.rxb
          (dlcCount s.params.can.layout raw)).length ≤ 8 := by
        rw [Params.length_dataAddrs]
        exact Nat.min_le_right _ _
      exact (((atMost_readCanBytes _).mono hids).bind fun _ => (atMost_busRead _ _).bind fun raw =>
        ((atMost_readCanBytes _).mono (hdata raw)).bind fun _ => (atMost_canWrite _ _).bind fun _ =>
        atMost_pure _).mono (by decide)

end Sys2Proof.Machine
end

section
/-! Where a command leaves the radio's recorded mode: the state machine (41_radio.md section 3), and what a
bus error leaves recorded (60_exceptions.md section 6). -/

namespace Sys2Proof.Machine

open Sys2Proof

/-! ## The mode a command ends in (41_radio.md section 3) -/

/-- Steps that end with the mode `m` recorded, or at a transaction that fails. -/
def Act.EndsAt {α : Type} (p : Params) (m : RadioState) (x : Act α) : Prop :=
  ∀ s, s.params = p →
    (∃ a t, x s = .ok a t ∧ t.params = p ∧ t.radioState = m) ∨ ∃ t, x s = .error .busIoError t

/-- Any operation at all. -/
def anyOperation (_ : Operation) : Prop := True

section EndsAt

variable {p : Params} {m : RadioState} {α β : Type}

theorem Act.Within.bind_endsAt {D : Operation → Prop} {x : Act α} {f : α → Act β} (hx : x.Within p D)
    (hf : ∀ a, (f a).EndsAt p m) : (x >>= f).EndsAt p m := by
  intro s hs
  obtain ⟨a, t, hxs, ht⟩ | ⟨t, hxs, -⟩ := hx s hs
  · obtain ⟨b, u, hfu, hu⟩ | ⟨u, hfu⟩ := hf a t (ht.params.trans hs)
    · exact .inl ⟨b, u, by simp [hxs, hfu], hu⟩
    · exact .inr ⟨u, by simp [hxs, hfu]⟩
  · exact .inr ⟨t, by simp [hxs]⟩

/-- What a command hands on does not change the mode. -/
theorem Act.EndsAt.bind {x : Act α} {f : α → Act β} {P : β → Prop} (hx : x.EndsAt p m)
    (hf : ∀ a, (f a).Hands P) : (x >>= f).EndsAt p m := by
  intro s hs
  obtain ⟨a, t, hxs, ht⟩ | ⟨t, hxs⟩ := hx s hs
  · obtain ⟨b, hfb, -⟩ := hf a t
    exact .inl ⟨b, t, by simp [hxs, hfb], ht⟩
  · exact .inr ⟨t, by simp [hxs]⟩

theorem Act.EndsAt.ite {c : Prop} [Decidable c] {x y : Act α} (hx : x.EndsAt p m)
    (hy : y.EndsAt p m) : (if c then x else y).EndsAt p m := by
  split
  · exact hx
  · exact hy

theorem endsAt_withParams {f : Params → Act α} (h : (f p).EndsAt p m) :
    (params >>= f).EndsAt p m := by
  intro s hs
  obtain rfl := hs
  exact h s rfl

theorem endsAt_recordMode (m : RadioState) : (update (State.setRadioState · m)).EndsAt p m :=
  fun s hs => .inl ⟨(), s.setRadioState m, rfl, hs, rfl⟩

theorem within_any_radioWrite (reg : RadioMap → Byte) (v : Byte) :
    (radioWrite reg v).Within p anyOperation :=
  within_withParams <| within_busWrite trivial

theorem any_transact (out : List Byte) (_ : p.PowerSafe out) :
    anyOperation (.transact .radio out) := trivial

theorem endsAt_setMode (m : RadioState) : (setMode m).EndsAt p m :=
  endsAt_withParams <| (within_any_radioWrite _ _).bind_endsAt fun _ => endsAt_recordMode m

theorem endsAt_transmitTail (budget : Nat) (clear : Byte) :
    (transmitTail budget clear).EndsAt p .standby :=
  (within_pollTxDone any_transact (fun _ _ => trivial) _).bind_endsAt fun _ =>
    (within_any_radioWrite _ _).bind_endsAt fun _ => Act.EndsAt.ite
      ((endsAt_recordMode _).bind fun _ => hands_done)
      ((endsAt_setMode _).bind fun _ => hands_doneWith (by decide))

theorem endsAt_blockingRxTail (l : RadioLayout) (budget : Nat) :
    (blockingRxTail l budget).EndsAt p .standby := by
  refine (within_pollRxDone any_transact (fun _ _ => trivial) _).bind_endsAt fun event => ?_
  cases event with
  | none =>
    exact (within_any_radioWrite _ _).bind_endsAt fun _ =>
      (endsAt_setMode _).bind fun _ => hands_doneWith (by decide)
  | some f =>
    refine Act.EndsAt.ite ?dropped ?received
    case dropped =>
      exact (within_any_radioWrite _ _).bind_endsAt fun _ =>
        (endsAt_setMode _).bind fun _ => hands_doneWith (by decide)
    case received =>
      exact (within_readPacket any_transact).bind_endsAt fun _ =>
        (within_any_radioWrite _ _).bind_endsAt fun _ =>
        (endsAt_setMode _).bind fun _ => hands_doneData _

end EndsAt

theorem Act.EndsAt.radioState {body : Act (Status × List Byte)} {m : RadioState} {s t : State}
    (h : body.EndsAt s.params m) (hrun : runCommand body s = .next t) (hbus : t.lastStatus ≠ 0x11) :
    t.radioState = m := by
  obtain ⟨r, u, hu, -, hm⟩ | ⟨u, hu⟩ := h s rfl
  · rw [runCommand_next, State.afterCommand_ok hu] at hrun
    injection hrun with hrun
    rw [← hrun]
    exact hm
  · rw [runCommand_of_error hu] at hrun
    injection hrun with hrun
    exact absurd (by rw [← hrun]; rfl) hbus

/-! ### The commands from their state check on -/

/-- The two outcomes of a command's check of the recorded mode, on a Ready radio. -/
theorem runCommand_requireRadioState {s : State} (hlife : s.radioLife = .ready) (m : RadioState)
    (k : Unit → Act (Status × List Byte)) :
    runCommand (do radioGate; requireRadioState m >>= k) s =
      if s.radioState = m then runCommand (k ()) s else .next (s.ended .stateError []) := by
  split
  · next h =>
    exact (runCommand_bind_ok (radioGate_ready hlife) _).trans
      (runCommand_bind_ok (requireRadioState_ok h) _)
  · next h =>
    exact (runCommand_bind_ok (radioGate_ready hlife) _).trans
      (runCommand_bind_error (requireRadioState_error h) _)

/-- What a command with a state check leaves: its body's mode, or the check's refusal. -/
theorem radioState_of_check {s t : State} (hlife : s.radioLife = .ready) {m m' : RadioState}
    {k : Unit → Act (Status × List Byte)}
    (hrun : runCommand (do radioGate; requireRadioState m >>= k) s = .next t)
    (hbus : t.lastStatus ≠ 0x11) (hk : (k ()).EndsAt s.params m') :
    if s.radioState = m then t.radioState = m' else t = s.ended .stateError [] := by
  rw [runCommand_requireRadioState hlife] at hrun
  split at hrun
  · next h =>
    rw [if_pos h]
    exact hk.radioState hrun hbus
  · next h =>
    rw [if_neg h]
    injection hrun with hrun
    exact hrun.symm

/-- `RADIO_POLL_RX` records no other mode than the one it needs. -/
theorem exec_radioPollRx_radioState {s t : State} (hexec : exec .radioPollRx s = .next t)
    (hstate : s.radioState = .receivingContinuous) : t.radioState = .receivingContinuous := by
  have hends := exec_endsIn (i := .radioPollRx) (by simp [Instr.bookkept, Instr.family]) s
  rw [hexec] at hends
  obtain ⟨u, st, data, hu, rfl⟩ := hends.keeps
    (R := fun a b => a.radioState = .receivingContinuous → b.radioState = .receivingContinuous)
    (fun _ => id) (fun _ _ _ hab hbc => hbc ∘ hab) fun u o ho hr => by
      cases o with
      | recordMode m =>
        have hm : (m == .receivingContinuous) = true := ho.resolve_left Bool.false_ne_true
        simpa [Operation.apply] using hm
      | pulse => exact absurd (ho.resolve_right id) Bool.false_ne_true
      | recordConstructed => exact absurd (ho.resolve_left id) Bool.false_ne_true
      | transact _ _ | wait _ _ | recordFailed | checkHazard | recordCanMode _ | recordCanReady _
      | recordUnconfigured | setBuffer _ => simpa [Operation.apply] using hr
  exact hu hstate

/-- `RADIO_TRANSMIT` after its length check. -/
theorem exec_radioTransmit_checked {s : State} {payload : List Byte} (hpos : 0 < payload.length)
    (hmax : payload.length ≤ s.params.maxPayload) :
    exec (.radioTransmit payload) s = runCommand (do
      radioGate
      requireRadioState .standby
      resetFifoTx
      writeFifo payload
      radioWrite RadioMap.payloadLength (BitVec.ofNat 8 payload.length)
      setMode .transmitting
      transmitTail s.params.txPollBudget s.params.radio.layout.clearTxDone) s :=
  runCommand_params_require_ok
    (c := fun p => decide (0 < payload.length ∧ payload.length ≤ p.maxPayload))
    (decide_eq_true ⟨hpos, hmax⟩) _ _

/-- What `RADIO_INIT` does once its identity check has passed and it has gone to sleep (R170). -/
def initTail (freq bw sf cr preamble : Word) (sync : Byte) (txpow : Word) (crc : Byte) :
    Act (Status × List Byte) := do
  setFrequency freq.toNat
  setBandwidth bw.toNat
  setLnaAgc
  setTxPower txpow.toInt
  setSpreadingFactor sf.toInt
  setCodingRate cr.toInt
  setPreamble preamble.toNat
  setSyncWord sync
  setCrc (flagValue crc)
  setMode .standby
  update (State.setRadioLife · .ready)
  done

theorem ends_initTail {p : Params} {D C : Operation → Prop}
    (hD : ∀ out, p.PowerSafe out → D (.transact .radio out)) (hC : C .recordConstructed)
    (freq bw sf cr preamble : Word) (sync : Byte) (txpow : Word) (crc : Byte) :
    (initTail freq bw sf cr preamble sync txpow crc).Ends p D C NotBusError :=
  (within_setFrequency hD _).bind_ends fun _ => (within_setBandwidth hD _).bind_ends fun _ =>
    (within_setLnaAgc hD).bind_ends fun _ => (within_setTxPower hD _).bind_ends fun _ =>
    (within_setSpreadingFactor hD _).bind_ends fun _ => (within_setCodingRate hD _).bind_ends fun _ =>
    (within_setPreamble hD _).bind_ends fun _ => (within_setSyncWord hD _).bind_ends fun _ =>
    (within_setCrc hD _).bind_ends fun _ => ends_constructRadio hD hC

theorem endsAt_constructRadio {p : Params} :
    Act.EndsAt p .standby (do setMode .standby; update (State.setRadioLife · .ready); done) := by
  intro s hs
  obtain ⟨_, t, hset, hparams, hm⟩ | ⟨t, hset⟩ := endsAt_setMode .standby s hs
  · exact .inl ⟨(.ok, []), t.setRadioLife .ready, by simp [hset], hparams, hm⟩
  · exact .inr ⟨t, by simp [hset]⟩

theorem endsAt_initTail {p : Params}
    (freq bw sf cr preamble : Word) (sync : Byte) (txpow : Word) (crc : Byte) :
    (initTail freq bw sf cr preamble sync txpow crc).EndsAt p .standby :=
  (within_setFrequency any_transact _).bind_endsAt fun _ =>
    (within_setBandwidth any_transact _).bind_endsAt fun _ =>
    (within_setLnaAgc any_transact).bind_endsAt fun _ =>
    (within_setTxPower any_transact _).bind_endsAt fun _ =>
    (within_setSpreadingFactor any_transact _).bind_endsAt fun _ =>
    (within_setCodingRate any_transact _).bind_endsAt fun _ =>
    (within_setPreamble any_transact _).bind_endsAt fun _ =>
    (within_setSyncWord any_transact _).bind_endsAt fun _ =>
    (within_setCrc any_transact _).bind_endsAt fun _ => endsAt_constructRadio

/-- What the identity check of `RADIO_INIT` can do: its one read fails, or returns another byte, or the byte
expected. -/
theorem checkIdentity_cases (s : State) :
    (checkIdentity s = .ok () (s.transacted [s.rdRadio RadioMap.version])) ∨
    (checkIdentity s = .error .busIoError (s.transacted [s.rdRadio RadioMap.version])) ∨
    checkIdentity s = .error .deviceNotFound
      ((s.transacted [s.rdRadio RadioMap.version]).setRadioLife .failed) := by
  by_cases hfail : s.answerAt 0 .radio (s.params.framing.readFrame .radio s.params.radio.version) = .fail
  · have hread : radioRead RadioMap.version s =
        .error .busIoError (s.transacted [s.rdRadio RadioMap.version]) := by
      simp only [radioRead, act_bind, params_apply]
      exact busRead_error hfail
    exact .inr (.inl (by simp [checkIdentity, hread]))
  · have hread : radioRead RadioMap.version s = .ok (s.readAt 0 .radio s.params.radio.version)
        (s.transacted [s.rdRadio RadioMap.version]) := radioRead_ok hfail
    by_cases hid : s.readAt 0 .radio s.params.radio.version = s.params.radioIdValue
    · exact .inl (by simp [checkIdentity, hread, hid])
    · exact .inr (.inr (by simp [checkIdentity, hread, hid]))

/-- A `RADIO_INIT` that ends OK leaves the radio in Standby. -/
theorem exec_radioInit_standby {s t : State} {freq bw sf cr preamble : Word} {sync : Byte} {txpow : Word}
    {crc : Byte} (hlife : s.radioLife ≠ .failed)
    (hexec : exec (.radioInit freq bw sf cr preamble sync txpow crc) s = .next t)
    (hok : t.lastStatus = 0x00) : t.radioState = .standby := by
  have hnot {u : State} {e : Status}
      (hu : exec (.radioInit freq bw sf cr preamble sync txpow crc) s = .next (u.ended e []))
      (he : e.code ≠ 0x00) : t.radioState = .standby := by
    rw [hu] at hexec
    injection hexec with hexec
    exact absurd (by rw [← hok, ← hexec]; rfl) he
  cases hflag : flagLegal crc with
  | false => exact hnot (runCommand_require_error hflag _ _ s) (by decide)
  | true =>
    have hpulsed := exec_radioInit_pulsed (eq_zero_or_one_of_flagLegal hflag) hlife freq bw sf cr preamble
      sync txpow
    obtain hid | hid | hid := checkIdentity_cases s.pulsed
    · rw [hpulsed, runCommand_bind_ok hid] at hexec
      exact Act.EndsAt.radioState ((within_setMode (D := anyOperation) any_transact trivial).bind_endsAt
        fun _ => endsAt_initTail _ _ _ _ _ _ _ _) hexec
        (by rw [hok]; decide)
    · exact hnot (hpulsed.trans (runCommand_bind_error hid _)) (by decide)
    · exact hnot (hpulsed.trans (runCommand_bind_error hid _)) (by decide)

/-- Settles O22: each command's last mode write is the one its row of the table names. -/
theorem radioStateTable : Obligations.RadioStateTable := by
  intro s t i hlife hexec hbus
  have hmode {m : RadioState} (hrun : runCommand (do radioGate; setMode m; done) s = .next t) :
      t.radioState = m := by
    rw [runCommand_bind_ok (radioGate_ready hlife)] at hrun
    exact Act.EndsAt.radioState ((endsAt_setMode m).bind fun _ => hands_done) hrun hbus
  refine ⟨?transmit, ?startRx, ?pollRx, ?blockingRx, ?sleep, ?standby, ?setting, ?init⟩
  case transmit =>
    rintro payload rfl hpos hmax
    rw [exec_radioTransmit_checked hpos hmax] at hexec
    exact radioState_of_check hlife hexec hbus <|
      (within_resetFifoTx any_transact).bind_endsAt fun _ =>
      (within_writeFifo any_transact _).bind_endsAt fun _ =>
      (within_any_radioWrite _ _).bind_endsAt fun _ =>
      (within_setMode (D := anyOperation) any_transact trivial).bind_endsAt fun _ =>
      endsAt_transmitTail _ _
  case startRx =>
    rintro rfl
    exact radioState_of_check hlife hexec hbus <|
      (within_resetFifoRx any_transact).bind_endsAt fun _ =>
      (endsAt_setMode _).bind fun _ => hands_done
  case pollRx =>
    rintro rfl
    split
    · next hstate => exact exec_radioPollRx_radioState hexec hstate
    · next hstate =>
      have hrun : exec .radioPollRx s = _ := runCommand_requireRadioState hlife .receivingContinuous _
      rw [hrun, if_neg hstate] at hexec
      injection hexec with hexec
      exact hexec.symm
  case blockingRx =>
    rintro ms rfl
    exact radioState_of_check hlife hexec hbus <|
      (within_resetFifoRx any_transact).bind_endsAt fun _ =>
      (within_setMode (D := anyOperation) any_transact trivial).bind_endsAt fun _ =>
      endsAt_withParams <| endsAt_blockingRxTail _ _
  case sleep =>
    rintro rfl
    exact hmode hexec
  case standby =>
    rintro rfl
    exact hmode hexec
  case setting =>
    intro hi
    obtain ⟨-, hstate, -⟩ := hazardRule s t i hi hlife hexec
    exact hstate
  case init =>
    rintro freq bw sf cr preamble sync txpow crc rfl hok
    exact exec_radioInit_standby (by rw [hlife]; decide) hexec hok

/-! ## After a bus error (60_exceptions.md section 6) -/

/-- A command answered with BUS_IO_ERROR has come to a transaction that failed. -/
theorem EndsIn.of_busIoError {i : Instr} {s t : State} (h : EndsIn i s (.next t))
    (hout : t.outbox = s.outbox ++ [.result 0x11 []]) :
    ∃ u, s.Fails (i.during s.params) u ∧ t = u.ended .busIoError [] := by
  cases h with
  | completed u st data hst hu =>
    obtain ⟨-, -, -, hsame⟩ := hu.goesOnTo
    rw [State.ended_outbox, hsame] at hout
    injection List.append_cancel_left hout with hout
    injection hout with hcode _
    exact absurd (Status.code_injective hcode) hst
  | failed u hu => exact ⟨u, hu, rfl⟩

/-- A relation that holds up to a failed transaction, and across it. -/
theorem State.Fails.keeps {D : Operation → Prop} {R : State → State → Prop} {s t : State}
    (h : s.Fails D t) (hrefl : ∀ s, R s s) (htrans : ∀ a b c, R a b → R b c → R a c)
    (hstep : ∀ u o, D o → R u (o.apply u)) : R s t := by
  obtain ⟨v, dev, out, hv, hD, -, rfl⟩ := h
  exact htrans _ _ _ (hv.keeps hrefl htrans fun u o ho _ => hstep u o ho) (hstep v _ hD)

/-- The records that no command writes before its last transaction is answered. -/
def State.SameRecords (s t : State) : Prop :=
  t.radioLife = s.radioLife ∧ t.canLife = s.canLife ∧ t.canMode = s.canMode ∧ t.encBuf = s.encBuf

theorem State.sameRecords_trans (a b c : State) (h : a.SameRecords b) (h' : b.SameRecords c) :
    a.SameRecords c := by
  obtain ⟨hlife, hcan, hmode, hbuf⟩ := h
  obtain ⟨hlife', hcan', hmode', hbuf'⟩ := h'
  exact ⟨hlife'.trans hlife, hcan'.trans hcan, hmode'.trans hmode, hbuf'.trans hbuf⟩

theorem Operation.apply_sameRecords {p : Params} {i : Instr} {o : Operation} (ho : i.during p o)
    (s : State) : s.SameRecords (o.apply s) := by
  cases o with
  | pulse =>
    simp only [Operation.apply, State.SameRecords, State.pulsed]
    split <;> simp
  | transact _ _ | wait _ _ | recordMode _ | checkHazard => simp [Operation.apply, State.SameRecords]
  | recordFailed | recordConstructed | recordCanMode _ | recordCanReady _ | recordUnconfigured
  | setBuffer _ => exact ho.elim

theorem Operation.apply_radioState {p : Params} {i : Instr} {o : Operation} (ho : i.during p o)
    (hi : ∀ m, i.recordsOnTheWay m = false) (s : State) : (o.apply s).radioState = s.radioState := by
  cases o with
  | pulse =>
    simp only [Operation.apply, State.pulsed]
    split <;> simp
  | recordMode m =>
    have h : i.recordsOnTheWay m = true := ho
    rw [hi m] at h
    cases h
  | transact _ _ | wait _ _ | checkHazard => simp [Operation.apply]
  | recordFailed | recordConstructed | recordCanMode _ | recordCanReady _ | recordUnconfigured
  | setBuffer _ => exact ho.elim

/-! ### The commands that record a mode and go on -/

/-- Transactions and waits. -/
def Operation.onTheWire : Operation → Prop
  | .transact _ _ | .wait _ _ => True
  | _ => False

/-- A run of transactions and waits that fails keeps the mode and has made a transaction. -/
theorem State.Fails.onTheWire {s t : State} (h : s.Fails Operation.onTheWire t) :
    t.radioState = s.radioState ∧ s.draws < t.draws := by
  obtain ⟨v, dev, out, hv, -, -, rfl⟩ := h
  obtain ⟨hstate, hdraws⟩ := hv.keeps (R := fun a b => b.radioState = a.radioState ∧ a.draws ≤ b.draws)
    (fun _ => ⟨rfl, Nat.le_refl _⟩)
    (fun _ _ _ ⟨hab, hab'⟩ ⟨hbc, hbc'⟩ => ⟨hbc.trans hab, hab'.trans hbc'⟩) fun u o ho _ => by
      cases o with
      | transact _ _ | wait _ _ => simp [Operation.apply]
      | _ => exact ho.elim
  exact ⟨by rw [State.afterTxn_radioState, hstate], by rw [State.afterTxn_draws]; omega⟩

/-- The first steps of a command: `n` transactions that keep the recorded mode, or one of them fails, or
another status is raised. -/
def Act.Sends (x : Act Unit) (s : State) (n : Nat) : Prop :=
  (∃ t, x s = .ok () t ∧ t.params = s.params ∧ t.radioState = s.radioState ∧ t.draws = s.draws + n) ∨
  (∃ t, x s = .error .busIoError t ∧ t.radioState = s.radioState ∧ t.draws ≤ s.draws + n) ∨
  ∃ e t, e ≠ .busIoError ∧ x s = .error e t

theorem Act.Lists.sends {x : Act Unit} {s : State} {ts : List (Device × List Byte)} (h : x.Lists s ts) :
    x.Sends s ts.length := by
  have hx : x s = transactAll ts s := h
  obtain ⟨-, hrun⟩ | ⟨k, -, hrun⟩ := transactAll_cases ts s
  · exact .inl ⟨_, hx.trans hrun, by simp, by simp, by simp⟩
  · exact .inr (.inl ⟨_, hx.trans hrun, by simp, by simp⟩)

theorem sends_checkIdentity (s : State) : checkIdentity.Sends s 1 := by
  obtain h | h | h := checkIdentity_cases s
  · exact .inl ⟨_, h, by simp, by simp, by simp⟩
  · exact .inr (.inl ⟨_, h, by simp, by simp⟩)
  · exact .inr (.inr ⟨_, _, by decide, h⟩)

/-- A mode write is one transaction, and records the mode if it is answered (R152). -/
theorem setMode_cases (m : RadioState) (s : State) :
    setMode m s = .ok () ((s.transacted [s.wrMode m]).setRadioState m) ∨
    setMode m s = .error .busIoError (s.transacted [s.wrMode m]) := by
  by_cases h : s.answerAt 0 .radio (s.wrMode m).2 = .fail
  · exact .inr (setMode_error h)
  · exact .inl (setMode_ok h)

theorem runCommand_of_ok {body : Act (Status × List Byte)} {s s' : State} {r : Status × List Byte}
    (h : body s = .ok r s') : runCommand body s = .next (s'.ended r.1 r.2) := by
  rw [runCommand_next, State.afterCommand_ok h]

/-- A command that begins with `n` transactions, then records a mode, then goes on with transactions and waits:
a bus error leaves the mode once more than `n + 1` transactions are made. -/
theorem radioState_of_busIoError {x : Act Unit} {m : RadioState} {tail : Act (Status × List Byte)}
    {C : Operation → Prop} {s t : State} {n : Nat} (hx : x.Sends s n)
    (htail : tail.Ends s.params Operation.onTheWire C NotBusError)
    (hrun : runCommand (do x; setMode m; tail) s = .next t) (hbus : t.lastStatus = 0x11) :
    t.radioState = if t.draws ≤ s.draws + (n + 1) then s.radioState else m := by
  have hends {u : State} {st : Status} {data : List Byte}
      (h : runCommand (do x; setMode m; tail) s = .next (u.ended st data)) :
      t = u.ended st data ∧ st = .busIoError := by
    rw [h] at hrun
    injection hrun with hrun
    subst hrun
    exact ⟨rfl, Status.code_injective hbus⟩
  obtain ⟨u, hxs, hparams, hstate, hdraws⟩ | ⟨u, hxs, hstate, hdraws⟩ | ⟨e, u, he, hxs⟩ := hx
  · have hset := runCommand_bind_ok hxs fun _ => setMode m >>= fun _ => tail
    obtain hm | hm := setMode_cases m u
    · have hgo := hset.trans (runCommand_bind_ok hm _)
      obtain ⟨r, v, hv, hr, -⟩ | ⟨e, v, hv, ⟨he, -⟩ | ⟨rfl, hfails⟩⟩ :=
        htail ((u.transacted [u.wrMode m]).setRadioState m) (by simpa using hparams)
      · obtain ⟨-, hst⟩ := hends (hgo.trans (runCommand_of_ok hv))
        exact absurd hst hr
      · obtain ⟨-, hst⟩ := hends (hgo.trans (runCommand_of_error hv))
        exact absurd hst he
      · obtain ⟨rfl, -⟩ := hends (hgo.trans (runCommand_of_error hv))
        obtain ⟨hkept, hmore⟩ := hfails.onTheWire
        have hmore : u.draws + 1 < v.draws := by simpa using hmore
        rw [if_neg (by rw [State.ended_draws]; omega), State.ended_radioState, hkept]
        rfl
    · obtain ⟨rfl, -⟩ := hends (hset.trans (runCommand_bind_error hm _))
      rw [if_pos (by simp [hdraws]), State.ended_radioState, State.transacted_radioState, hstate]
  · obtain ⟨rfl, -⟩ := hends (runCommand_bind_error hxs _)
    rw [if_pos (by rw [State.ended_draws]; omega), State.ended_radioState, hstate]
  · obtain ⟨-, hst⟩ := hends (runCommand_bind_error hxs _)
    exact absurd hst he

theorem State.Later.lists_writeFifo {s t : State} {n : Nat} (h : s.Later t n) (bs : List Byte) :
    (Machine.writeFifo bs).Lists t (bs.map (s.wrRadio RadioMap.fifo)) := by
  induction bs generalizing t n with
  | nil => rfl
  | cons b bs ih => exact h.lists_radioWrite_bind fun h1 => ih h1

theorem lists_resetFifoRx (s : State) : resetFifoRx.Lists s
    [s.wrRadio RadioMap.fifoRxBaseAddr s.params.fifoBase, s.wrRadio RadioMap.fifoAddrPtr s.params.fifoBase] :=
  lists_withParams <| (State.Later.refl s).lists_radioWrite_bind fun h => h.lists_radioWrite _ _

/-- What `RADIO_TRANSMIT` sends before its mode write. -/
theorem sends_payload (s : State) (payload : List Byte) (n : Byte) :
    Act.Sends (do resetFifoTx; writeFifo payload; radioWrite RadioMap.payloadLength n) s
      (payload.length + 2) := by
  have h0 := State.Later.refl s
  have hreset : resetFifoTx.Lists s [s.wrRadio RadioMap.fifoAddrPtr s.params.fifoBase] :=
    lists_withParams (h0.lists_radioWrite _ _)
  have h1 : s.Later _ 1 := h0.transacted [s.wrRadio RadioMap.fifoAddrPtr s.params.fifoBase] rfl
  have h2 := h1.transacted (payload.map (s.wrRadio RadioMap.fifo)) rfl
  have hall : Act.Lists (do resetFifoTx; writeFifo payload; radioWrite RadioMap.payloadLength n) s
      ([s.wrRadio RadioMap.fifoAddrPtr s.params.fifoBase] ++
        (payload.map (s.wrRadio RadioMap.fifo) ++ [s.wrRadio RadioMap.payloadLength n])) :=
    hreset.bind ((h1.lists_writeFifo payload).bind (h2.lists_radioWrite RadioMap.payloadLength n))
  have hsends := hall.sends
  have hlen : ([s.wrRadio RadioMap.fifoAddrPtr s.params.fifoBase] ++
      (payload.map (s.wrRadio RadioMap.fifo) ++ [s.wrRadio RadioMap.payloadLength n])).length =
      payload.length + 2 := by simp
  rwa [hlen] at hsends

/-- A command that ends at a check has met no bus error. -/
theorem not_busIoError_of_ended {s t : State} {i : Instr} {e : Status} (hexec : exec i s = .next t)
    (h : exec i s = .next (s.ended e [])) (he : e ≠ .busIoError) : t.lastStatus ≠ 0x11 := by
  rw [h] at hexec
  injection hexec with hexec
  rw [← hexec]
  exact fun hcode => he (Status.code_injective hcode)

theorem State.pulsed_radioState (s : State) : s.pulsed.radioState = s.radioState := by
  unfold State.pulsed
  split <;> simp

section BusError

variable {s t : State}

theorem radioInit_busIoError {freq bw sf cr preamble : Word} {sync : Byte} {txpow : Word} {crc : Byte}
    (hexec : exec (.radioInit freq bw sf cr preamble sync txpow crc) s = .next t)
    (hbus : t.lastStatus = 0x11) :
    t.radioState = if t.draws ≤ s.draws + 2 then s.radioState else .sleep := by
  cases hflag : flagLegal crc with
  | false =>
    exact absurd hbus
      (not_busIoError_of_ended hexec (runCommand_require_error hflag _ _ s) (by decide))
  | true =>
    have hcrc := eq_zero_or_one_of_flagLegal hflag
    by_cases hlife : s.radioLife = .failed
    · exact absurd hbus (not_busIoError_of_ended hexec
        (exec_radioInit_failed hcrc hlife freq bw sf cr preamble sync txpow) (by decide))
    · rw [exec_radioInit_pulsed hcrc hlife] at hexec
      have h := radioState_of_busIoError (sends_checkIdentity s.pulsed)
        (C := anyOperation) (ends_initTail (fun _ _ => trivial) trivial _ _ _ _ _ _ _ _) hexec hbus
      rwa [State.pulsed_draws, State.pulsed_radioState] at h

/-- A command that ends in a bus error has passed its checks. -/
theorem Act.Checks.passed {α : Type} {x : Act α} (hx : x.Checks) {k : α → Act (Status × List Byte)}
    (hrun : runCommand (x >>= k) s = .next t) (hbus : t.lastStatus = 0x11) :
    ∃ a, runCommand (k a) s = .next t := by
  obtain ⟨a, hxs⟩ | ⟨e, he, hxs⟩ := hx s
  · exact ⟨a, (runCommand_bind_ok hxs k).symm.trans hrun⟩
  · rw [runCommand_bind_error hxs k] at hrun
    injection hrun with hrun
    rw [← hrun] at hbus
    have hcode : e.code = Status.busIoError.code := hbus
    exact absurd (Status.code_injective hcode) he

theorem radioTransmit_busIoError {payload : List Byte} (hexec : exec (.radioTransmit payload) s = .next t)
    (hbus : t.lastStatus = 0x11) :
    t.radioState = if t.draws ≤ s.draws + payload.length + 3 then s.radioState else .transmitting := by
  obtain ⟨_, hlength⟩ := (checks_require (by decide)).passed hexec hbus
  obtain ⟨_, hgate⟩ := checks_radioGate.passed hlength hbus
  obtain ⟨_, hbody⟩ := (checks_requireRadioState _).passed hgate hbus
  have hassoc : ∀ k : Act (Status × List Byte),
      (do resetFifoTx; writeFifo payload
          radioWrite RadioMap.payloadLength (BitVec.ofNat 8 payload.length); k) =
      (do resetFifoTx; writeFifo payload
          radioWrite RadioMap.payloadLength (BitVec.ofNat 8 payload.length)) >>= fun _ => k :=
    fun k => by simp only [bind_assoc]
  rw [hassoc] at hbody
  exact radioState_of_busIoError (sends_payload s payload _) (C := anyOperation)
    (ends_transmitTail (fun _ _ => trivial) (fun _ _ => trivial) trivial _ _) hbody hbus

theorem radioBlockingRx_busIoError {ms : Word} (hexec : exec (.radioBlockingRx ms) s = .next t)
    (hbus : t.lastStatus = 0x11) :
    t.radioState = if t.draws ≤ s.draws + 3 then s.radioState else .receivingContinuous := by
  obtain ⟨_, hgate⟩ := checks_radioGate.passed hexec hbus
  obtain ⟨_, hbody⟩ := (checks_requireRadioState _).passed hgate hbus
  exact radioState_of_busIoError (lists_resetFifoRx s).sends (C := anyOperation)
    (ends_withParams <| ends_blockingRxTail (fun _ _ => trivial) (fun _ _ => trivial) trivial _ _) hbody hbus

end BusError

/-- Settles O59: up to the transaction that failed no command writes the records, and three commands have a mode
write among their first steps. -/
theorem busErrorKeepsRecords : Obligations.BusErrorKeepsRecords := by
  intro s t i hexec hout
  have hends : EndsIn i s (.next t) := by
    obtain ⟨-, h⟩ | ⟨-, data, h⟩ | ⟨-, bytes, h⟩ | ⟨-, dev, out, h⟩ := exec_forms i s
    · rwa [hexec] at h
    all_goals
      rw [hexec] at h
      injection h with h
      rw [h] at hout
    · rw [State.answered_outbox] at hout
      exact absurd (List.append_cancel_left hout) (by simp [Status.code])
    · rw [State.answered_outbox] at hout
      exact absurd (List.append_cancel_left hout) (by simp)
    · rw [State.afterTxn_outbox] at hout
      simp at hout
  obtain ⟨u, hu, rfl⟩ := hends.of_busIoError hout
  have hbus : (u.ended .busIoError []).lastStatus = 0x11 := rfl
  obtain ⟨hlife, hcan, hmode, hbuf⟩ := hu.keeps (R := State.SameRecords)
    (fun _ => ⟨rfl, rfl, rfl, rfl⟩) State.sameRecords_trans fun u o ho => Operation.apply_sameRecords ho u
  refine ⟨hlife, hcan, hmode, hbuf, ?_⟩
  have hkept (hi : ∀ m, i.recordsOnTheWay m = false) : u.radioState = s.radioState :=
    hu.keeps (R := fun a b => b.radioState = a.radioState) (fun _ => rfl)
      (fun _ _ _ hab hbc => hbc.trans hab) fun u o ho => Operation.apply_radioState ho hi u
  cases i with
  | radioInit => exact radioInit_busIoError hexec hbus
  | radioTransmit => exact radioTransmit_busIoError hexec hbus
  | radioBlockingRx => exact radioBlockingRx_busIoError hexec hbus
  | _ => exact hkept fun _ => rfl

end Sys2Proof.Machine
end

section
/-! The values the radio settings compute: the carrier word (41_radio.md R153) and the bandwidth code (R154). -/

namespace Sys2Proof

/-! ## Rounding to the nearest synthesizer step (00_scope.md R10) -/

/-- The rounded quotient is within half a divisor. -/
theorem rneDiv_mul_near {q : Nat} (hq : 0 < q) (p : Nat) :
    2 * (rneDiv p q * q) ≤ 2 * p + q ∧ 2 * p ≤ 2 * (rneDiv p q * q) + q := by
  have hdiv : p / q * q + p % q = p := Nat.div_add_mod' p q
  have hmod : p % q < q := Nat.mod_lt p hq
  have hsucc : (p / q + 1) * q = p / q * q + q := Nat.succ_mul _ _
  simp only [rneDiv]
  split
  · omega
  · split
    · omega
    · split <;> omega

theorem frfWord_toNat (xtal f : Nat) :
    (frfWord xtal f).toNat = min (rneDiv (f * 2 ^ 19) xtal) (2 ^ 24 - 1) := by
  rw [frfWord, BitVec.toNat_ofNat, Nat.mod_eq_of_lt (by omega)]

theorem frfWord_toNat_of_lt {f xtal : Nat} (hx : 0 < xtal)
    (h : 2 * (f * 2 ^ 19) < (2 ^ 25 - 1) * xtal) :
    (frfWord xtal f).toNat = rneDiv (f * 2 ^ 19) xtal := by
  obtain ⟨hbelow, -⟩ := rneDiv_mul_near hx (f * 2 ^ 19)
  have hlt : rneDiv (f * 2 ^ 19) xtal < 2 ^ 24 := Nat.lt_of_mul_lt_mul_right (a := xtal) (by omega)
  rw [frfWord_toNat]
  omega

theorem frfWord_toNat_of_le {f xtal : Nat} (hx : 0 < xtal)
    (h : (2 ^ 25 - 1) * xtal ≤ 2 * (f * 2 ^ 19)) : (frfWord xtal f).toNat = 2 ^ 24 - 1 := by
  obtain ⟨-, habove⟩ := rneDiv_mul_near hx (f * 2 ^ 19)
  have hle : 2 ^ 24 - 1 ≤ rneDiv (f * 2 ^ 19) xtal := Nat.le_of_mul_le_mul_right (c := xtal) (by omega) hx
  rw [frfWord_toNat]
  omega

/-- Settles O57: the rounded quotient is within half a step, and half a step below `2 ^ 24` it clamps. -/
theorem frequencyRoundTrip : Obligations.FrequencyRoundTrip := by
  refine ⟨?unclamped, ?clamped, ?reference⟩
  case unclamped =>
    intro f xtal hx h
    simp only [frfWord_toNat_of_lt hx h]
    exact rneDiv_mul_near hx _
  case clamped =>
    intro f xtal hx h
    exact ⟨frfWord_toNat_of_le hx h, by omega⟩
  case reference =>
    intro f
    have hclamped (hf : 1023999970 ≤ f) : (frfWord 32000000 f).toNat = 2 ^ 24 - 1 :=
      frfWord_toNat_of_le (by decide) (by omega)
    refine ⟨fun hf => ⟨hclamped hf, ?_⟩, fun hf hmax => ?_, fun hf => ?_, by omega⟩
    · rw [hclamped hf]
      omega
    · rw [hclamped hf]
      omega
    · rw [hclamped (by omega)]
      omega

/-! ## The nearest entry of a table (41_radio.md R154) -/

theorem distance_eq_abs (x y : Nat) : (distance x y : Int) = |(x : Int) - y| := by
  unfold distance
  obtain h | h := Nat.le_total x y
  · rw [abs_of_nonpos (by omega)]
    omega
  · rw [abs_of_nonneg (by omega)]
    omega

/-- The entry at `i` is the first of the nearest to `bw`. -/
def IsNearest (bw : Nat) (table : List (Nat × BitVec 4)) (i : Nat) (e : Nat × BitVec 4) : Prop :=
  table[i]? = some e ∧ ∀ (j : Nat) (e' : Nat × BitVec 4), table[j]? = some e' →
    distance bw e.1 ≤ distance bw e'.1 ∧ (j < i → distance bw e.1 < distance bw e'.1)

/-- A nearer second entry makes the first one irrelevant. -/
theorem IsNearest.cons {bw i : Nat} {best e b : Nat × BitVec 4} {es : List (Nat × BitVec 4)}
    (hlt : distance bw e.1 < distance bw best.1) (h : IsNearest bw (e :: es) i b) :
    IsNearest bw (best :: e :: es) (i + 1) b := by
  obtain ⟨hb, hall⟩ := h
  obtain ⟨hle, -⟩ := hall 0 e rfl
  refine ⟨hb, fun j e' hj => ?_⟩
  cases j with
  | zero =>
    obtain rfl := Option.some.inj hj
    exact ⟨by omega, fun _ => by omega⟩
  | succ j =>
    obtain ⟨hle', hlt'⟩ := hall j e' hj
    exact ⟨hle', fun hji => hlt' (by omega)⟩

/-- A second entry that is no nearer than the first changes nothing but the positions. -/
theorem IsNearest.skip {bw i : Nat} {best e b : Nat × BitVec 4} {es : List (Nat × BitVec 4)}
    (hge : distance bw best.1 ≤ distance bw e.1) (h : IsNearest bw (best :: es) i b) :
    ∃ i', IsNearest bw (best :: e :: es) i' b := by
  obtain ⟨hb, hall⟩ := h
  obtain ⟨hle, hlt⟩ := hall 0 best rfl
  cases i with
  | zero =>
    refine ⟨0, hb, fun j e' hj => ⟨?_, fun hj => absurd hj (by omega)⟩⟩
    obtain _ | _ | j := j
    · exact (hall 0 e' hj).1
    · obtain rfl := Option.some.inj hj
      omega
    · exact (hall (j + 1) e' hj).1
  | succ i =>
    have hbest := hlt (by omega)
    refine ⟨i + 2, hb, fun j e' hj => ?_⟩
    obtain _ | _ | j := j
    · obtain rfl := Option.some.inj hj
      exact ⟨hle, fun _ => hbest⟩
    · obtain rfl := Option.some.inj hj
      exact ⟨by omega, fun _ => by omega⟩
    · obtain ⟨hle', hlt'⟩ := hall (j + 1) e' hj
      exact ⟨hle', fun hji => hlt' (by omega)⟩

theorem nearestCode_isNearest (bw : Nat) (es : List (Nat × BitVec 4)) (best : Nat × BitVec 4) :
    ∃ i e, IsNearest bw (best :: es) i e ∧ nearestCode bw best es = e.2 := by
  induction es generalizing best with
  | nil =>
    refine ⟨0, best, ⟨rfl, fun j e' hj => ?_⟩, rfl⟩
    cases j with
    | zero =>
      obtain rfl := Option.some.inj hj
      exact ⟨le_rfl, fun h => absurd h (by omega)⟩
    | succ j => cases hj
  | cons e es ih =>
    simp only [nearestCode]
    split
    · next hlt =>
      obtain ⟨i, b, hb, hcode⟩ := ih e
      exact ⟨i + 1, b, hb.cons hlt, hcode⟩
    · next hge =>
      obtain ⟨i, b, hb, hcode⟩ := ih best
      obtain ⟨i', hb'⟩ := hb.skip (Nat.le_of_not_lt hge)
      exact ⟨i', b, hb', hcode⟩

theorem selectBandwidth_zero (p : Params) : selectBandwidth p 0 = p.bwDefaultCode := if_pos rfl

theorem selectBandwidth_isNearest {p : Params} {bw : Nat} (hbw : bw ≠ 0) (htable : p.bwTable ≠ []) :
    ∃ i e, IsNearest bw p.bwTable i e ∧ selectBandwidth p bw = e.2 := by
  rw [selectBandwidth, if_neg hbw]
  cases h : p.bwTable with
  | nil => exact absurd h htable
  | cons best es => exact nearestCode_isNearest bw es best

theorem selectBandwidth_reference {p : Params} (htable : p.bwTable = bwTableReference) {bw : Nat}
    (hbw : bw ≠ 0) : selectBandwidth p bw = nearestCode bw (7800, 0) bwTableReference.tail := by
  rw [selectBandwidth, if_neg hbw, htable]
  rfl

/-- The entry selected is as near as any given one. -/
theorem selectBandwidth_distance_le {p : Params} {table : List (Nat × BitVec 4)} (htable : p.bwTable = table)
    {bw : Nat} (hbw : bw ≠ 0) {e' : Nat × BitVec 4} (he' : e' ∈ table) :
    ∃ e ∈ table, distance bw e.1 ≤ distance bw e'.1 ∧ selectBandwidth p bw = e.2 := by
  subst htable
  obtain ⟨i, e, ⟨he, hall⟩, hcode⟩ := selectBandwidth_isNearest hbw (List.ne_nil_of_mem he')
  obtain ⟨j, hj⟩ := List.mem_iff_getElem?.mp he'
  obtain ⟨hle, -⟩ := hall j e' hj
  exact ⟨e, List.mem_of_getElem? he, hle, hcode⟩

/-- Settles O58: the fold keeps the first of the nearest entries. -/
theorem bandwidthNearest : Obligations.BandwidthNearest := by
  refine ⟨selectBandwidth_zero, ?nearest, ?reference⟩
  case nearest =>
    intro p bw hbw htable
    obtain ⟨i, e, ⟨he, hall⟩, hcode⟩ := selectBandwidth_isNearest hbw htable
    refine ⟨i, e, he, hcode, fun j e' hj => ?_⟩
    obtain ⟨hle, hlt⟩ := hall j e' hj
    simp only [← distance_eq_abs]
    exact ⟨by omega, fun hji => by have := hlt hji; omega⟩
  case reference =>
    intro p htable hdefault
    have hselect {bw : Nat} (hbw : bw ≠ 0) := selectBandwidth_reference htable hbw
    refine ⟨(selectBandwidth_zero p).trans hdefault, ?lower, ?upper, fun bw hbw => ?above,
      fun bw hpos hbw => ?below⟩
    case lower =>
      simp only [List.map_cons, List.map_nil, hselect, ne_eq, OfNat.ofNat_ne_zero, not_false_eq_true]
      decide
    case upper =>
      simp only [List.map_cons, List.map_nil, hselect, ne_eq, OfNat.ofNat_ne_zero, not_false_eq_true]
      decide
    case above =>
      have hcodes : ∀ e ∈ bwTableReference, 500000 ≤ e.1 → e.2 = 9 := by decide
      obtain ⟨e, he, hnear, hcode⟩ :=
        selectBandwidth_distance_le htable (bw := bw) (by omega) (by decide : (500000, 9) ∈ bwTableReference)
      rw [hcode, hcodes e he (by simp only [distance] at hnear; omega)]
    case below =>
      have hcodes : ∀ e ∈ bwTableReference, e.1 ≤ 7800 → e.2 = 0 := by decide
      obtain ⟨e, he, hnear, hcode⟩ :=
        selectBandwidth_distance_le htable (bw := bw) (by omega) (by decide : (7800, 0) ∈ bwTableReference)
      rw [hcode, hcodes e he (by simp only [distance] at hnear; omega)]

/-! ## The fields of the reference profile (20_memory.md R62 to R64) -/

/-- Writing the upper half of a register. -/
theorem Field.insert_upperHalf (r v : Byte) : Field.insert ⟨4, 4⟩ r v = (r &&& 0x0F) ||| (v <<< 4) := by
  have hfits : ∀ v : Byte, (v <<< 4) &&& 0xF0 = v <<< 4 := by decide
  exact congrArg (r &&& 0x0F ||| ·) (hfits v)

/-- Writing the three bits above the lowest. -/
theorem Field.insert_codingRate (r : Byte) {v : Byte} (hv : v < 8) :
    Field.insert ⟨1, 3⟩ r v = (r &&& 0xF1) ||| (v <<< 1) := by
  have hfits : ∀ v : Byte, v < 8 → (v <<< 1) &&& 0x0E = v <<< 1 := by decide
  exact congrArg (r &&& 0xF1 ||| ·) (hfits v hv)

theorem withBandwidth_reference (r : Byte) (code : BitVec 4) :
    withBandwidth .reference r code = (r &&& 0x0F) ||| (code.setWidth 8 <<< 4) :=
  Field.insert_upperHalf r _

theorem withSpreadingFactor_reference (r : Byte) {q : Int} (hmin : 6 ≤ q) (hmax : q ≤ 12) :
    withSpreadingFactor .reference r q = (r &&& 0x0F) ||| (BitVec.ofInt 8 q <<< 4) := by
  have hcode : RadioLayout.reference.spreadingFactorCodes.getD (q - 6).toNat 0 = BitVec.ofInt 8 q := by
    interval_cases q <;> rfl
  rw [withSpreadingFactor, hcode]
  exact Field.insert_upperHalf r _

theorem withCodingRate_reference (r : Byte) {q : Int} (hmin : 5 ≤ q) (hmax : q ≤ 8) :
    withCodingRate .reference r q = (r &&& 0xF1) ||| (BitVec.ofInt 8 (q - 4) <<< 1) := by
  have hcode : RadioLayout.reference.codingRateCodes.getD (q - 5).toNat 0 = BitVec.ofInt 8 (q - 4) := by
    interval_cases q <;> rfl
  have hsmall : BitVec.ofInt 8 (q - 4) < 8 := by
    interval_cases q <;> decide
  rw [withCodingRate, hcode]
  exact Field.insert_codingRate r hsmall

theorem paConfigByte_reference (dBm : Int) :
    paConfigByte .reference dBm = 0x80 ||| BitVec.ofInt 8 (min (max dBm 2) 17 - 2) := by
  have hmin : 2 ≤ clamp dBm 2 17 := by
    unfold clamp
    omega
  have hmax : clamp dBm 2 17 ≤ 17 := min_le_right _ _
  have hbyte : ∀ q : Int, 2 ≤ q → q ≤ 17 → RadioLayout.reference.outputPower.insert 0x80
      (RadioLayout.reference.powerCodes.getD (q - 2).toNat 0) = 0x80 ||| BitVec.ofInt 8 (q - 2) := by
    intro q h2 h17
    interval_cases q <;> rfl
  exact hbyte _ hmin hmax

theorem withCrc_reference (r : Byte) (on : Bool) :
    withCrc .reference r on = if on then r ||| 0x04 else r &&& 0xFB := rfl

theorem canctrlByte_reference (m : BitVec 3) : canctrlByte .reference m = m.setWidth 8 <<< 5 := by
  revert m
  decide

theorem dlcByte_reference {n : Nat} (hn : n ≤ 8) : dlcByte .reference n = BitVec.ofNat 8 n := by
  interval_cases n <;> rfl

theorem dlcCount_reference (b : Byte) : dlcCount .reference b = min (b.toNat % 16) 8 := by
  revert b
  decide

theorem rts_reference {n : Nat} (hn : n < 3) :
    Framing.reference.rts n = [0x80 ||| ((1 : Byte) <<< n)] := by
  interval_cases n <;> rfl

open Machine in
theorem rxFull_reference {m : Nat} (hm : m < 2) (f : Byte) : rxFull .reference m f = f.getLsbD m ∧
    clearRxFull .reference m f = f &&& ~~~((1 : Byte) <<< m) := by
  interval_cases m <;> exact ⟨rfl, rfl⟩

/-- Settles O60: each byte by the rule of its field. -/
theorem referenceProfile : Obligations.ReferenceProfile := by
  have hframes (addr v : Byte) :=
    And.intro (Machine.writeFrame_reference .radio addr v) <|
    And.intro (Machine.readFrame_reference .radio addr) <|
    And.intro (Machine.writeFrame_reference .can addr v) (Machine.readFrame_reference .can addr)
  refine ⟨hframes, rfl, rfl, rfl, rfl, fun n hn => rts_reference hn, by decide, withBandwidth_reference,
    fun b q hmin hmax => ⟨withSpreadingFactor_reference b hmin hmax, rfl⟩,
    fun b q hmin hmax => withCodingRate_reference b hmin hmax, paConfigByte_reference, withCrc_reference,
    rfl, rfl, fun f => ⟨rfl, rfl, rfl⟩, rfl, rfl, rfl, canctrlByte_reference,
    fun n hn => dlcByte_reference hn, dlcCount_reference, rfl, fun m f hm => rxFull_reference hm f⟩

end Sys2Proof
end

section
/-! What a radio setting and `RADIO_INIT` put on the bus: the first transactions of a list, whatever the answers
(41_radio.md section 2); and the clamp law in the reference profile (41_radio.md section 6). -/

namespace Sys2Proof.Machine

open Sys2Proof

/-! ## The transactions of a command as the beginning of a list -/

/-- The events of the transactions `ts`, the first of which is the `n`-th from `s`. -/
def State.observedFrom (s : State) (n : Nat) (ts : List (Device × List Byte)) : List Event :=
  ts.mapIdx fun k t => .txn t.1 t.2 (s.receivedAt (k + n) t.1 t.2)

theorem State.observedFrom_append (s : State) (n : Nat) (ts us : List (Device × List Byte)) :
    s.observedFrom n (ts ++ us) = s.observedFrom n ts ++ s.observedFrom (n + ts.length) us := by
  simp only [State.observedFrom, List.mapIdx_append]
  congr 2
  funext k t
  rw [Nat.add_assoc, Nat.add_comm ts.length]

theorem State.observedFrom_filter (s : State) (n : Nat) (ts : List (Device × List Byte)) :
    (s.observedFrom n ts).filter Event.isTxn = s.observedFrom n ts := by
  refine List.filter_eq_self.2 fun e he => ?_
  obtain ⟨k, hk, rfl⟩ := List.mem_mapIdx.1 he
  rfl

theorem State.Later.receivedAt {s t : State} {n : Nat} (h : s.Later t n) (k : Nat) (d : Device)
    (out : List Byte) : t.receivedAt k d out = s.receivedAt (k + n) d out := by
  rw [State.receivedAt, State.receivedAt, h.answerAt, h.draws, Nat.add_assoc, Nat.add_comm n]

theorem State.Later.observed {s t : State} {n : Nat} (h : s.Later t n) (ts : List (Device × List Byte)) :
    t.observed ts = s.observedFrom n ts := by
  simp only [State.observed, State.observedFrom, h.receivedAt]

/-- Steps whose transactions, from the `n`-th after `s`, are `ts`, or the first of these where the steps raise. -/
def Act.Adds {α : Type} (x : Act α) (s : State) (n : Nat) (ts : List (Device × List Byte)) : Prop :=
  ∀ t, s.Later t n →
    (∃ a u es, x t = .ok a u ∧ s.Later u (n + ts.length) ∧ u.trace = t.trace ++ es ∧
      es.filter Event.isTxn = s.observedFrom n ts) ∨
    ∃ e u es, x t = .error e u ∧ u.trace = t.trace ++ es ∧
      es.filter Event.isTxn <+: s.observedFrom n ts

section Adds

variable {α β : Type} {s : State} {n : Nat} {ts us : List (Device × List Byte)}

theorem Act.Adds.bind {x : Act α} {f : α → Act β} (hx : x.Adds s n ts)
    (hf : ∀ a, (f a).Adds s (n + ts.length) us) : (x >>= f).Adds s n (ts ++ us) := by
  intro t ht
  rw [State.observedFrom_append]
  obtain ⟨a, u, es, hxt, hu, htrace, hes⟩ | ⟨e, u, es, hxt, htrace, hes⟩ := hx t ht
  · obtain ⟨b, v, es', hfu, hv, htrace', hes'⟩ | ⟨e, v, es', hfu, htrace', hes'⟩ := hf a u hu
    · refine .inl ⟨b, v, es ++ es', by simp [hxt, hfu], ?_, by simp [htrace, htrace'],
        by rw [List.filter_append, hes, hes']⟩
      rwa [List.length_append, ← Nat.add_assoc]
    · refine .inr ⟨e, v, es ++ es', by simp [hxt, hfu], by simp [htrace, htrace'], ?_⟩
      rw [List.filter_append, hes]
      exact (List.prefix_append_right_inj _).2 hes'
  · exact .inr ⟨e, u, es, by simp [hxt], htrace, hes.trans (List.prefix_append _ _)⟩

theorem Act.Adds.bind_at {x : Act α} {f : α → Act β} {m : Nat} (hx : x.Adds s n ts)
    (hm : n + ts.length = m) (hf : ∀ a, (f a).Adds s m us) : (x >>= f).Adds s n (ts ++ us) :=
  hx.bind fun a => hm ▸ hf a

/-- First steps that make no transaction. -/
theorem Act.Adds.quiet_bind {x : Act α} {f : α → Act β} (hx : x.Adds s n [])
    (hf : ∀ a, (f a).Adds s n us) : (x >>= f).Adds s n us :=
  hx.bind_at rfl hf

/-- Last steps that make no transaction. -/
theorem Act.Adds.bind_quiet {x : Act α} {f : α → Act β} (hx : x.Adds s n ts)
    (hf : ∀ a, (f a).Adds s (n + ts.length) []) : (x >>= f).Adds s n ts := by
  have h := hx.bind hf
  rwa [List.append_nil] at h

theorem Act.Lists.adds {x : Act Unit} (h : ∀ t, s.Later t n → x.Lists t ts) : x.Adds s n ts := by
  intro t ht
  have hx : x t = transactAll ts t := h t ht
  obtain ⟨-, hrun⟩ | ⟨k, -, hrun⟩ := transactAll_cases ts t
  · refine .inl ⟨(), _, t.observed ts, hx.trans hrun, ht.transacted ts rfl, State.transacted_trace ts t, ?_⟩
    rw [ht.observed, State.observedFrom_filter]
  · refine .inr ⟨_, _, t.observed (ts.take (k + 1)), hx.trans hrun, State.transacted_trace _ t, ?_⟩
    rw [ht.observed, State.observedFrom_filter]
    conv_rhs => rw [← List.take_append_drop (k + 1) ts, State.observedFrom_append]
    exact List.prefix_append _ _

theorem Act.Checks.adds {x : Act α} (h : x.Checks) : x.Adds s n [] := by
  intro t ht
  obtain ⟨a, hx⟩ | ⟨e, -, hx⟩ := h t
  · exact .inl ⟨a, t, [], hx, ht, by simp, rfl⟩
  · exact .inr ⟨e, t, [], hx, by simp, List.prefix_rfl⟩

theorem adds_require_bind {c : Bool} {e : Status} {f : Unit → Act α}
    (h : c = true → (f ()).Adds s n ts) : (require c e >>= f).Adds s n ts := by
  intro t ht
  cases c with
  | true => exact h rfl t ht
  | false => exact .inr ⟨e, t, [], rfl, by simp, List.nil_prefix⟩

/-- An update that leaves the parameters, the answers and the observation. -/
theorem adds_update {f : State → State} (hlater : ∀ {t : State}, s.Later t n → s.Later (f t) n)
    (htrace : ∀ t : State, (f t).trace = t.trace) : (update f).Adds s n [] :=
  fun t ht => .inl ⟨(), f t, [], rfl, hlater ht, by simp [htrace t], rfl⟩

theorem adds_done : done.Adds s n [] := fun t ht => .inl ⟨_, t, [], rfl, ht, by simp, rfl⟩

theorem adds_hazardCheck : hazardCheck.Adds s n [] :=
  adds_update
    (fun h => ⟨by simp [h.params], by simp [h.draws], fun k d out => by simp [h.answerAt]⟩)
    (fun t => by simp)

/-- The reset pulse makes events, and no transaction. -/
theorem adds_pulseReset : pulseReset.Adds s n [] := by
  intro t ht
  have hlater : s.Later t.pulsed n := by
    obtain ⟨hparams, hdraws, hanswer⟩ := State.Later.pulsed t
    exact ⟨hparams.trans ht.params, hdraws.trans ht.draws,
      fun k d out => (hanswer k d out).trans (ht.answerAt k d out)⟩
  have htrace : ∃ es, t.pulsed.trace = t.trace ++ es ∧ es.filter Event.isTxn = [] := by
    unfold State.pulsed
    split
    · exact ⟨[.pin .reset false, .delay .resetPulse t.params.resetPulse, .pin .reset true,
        .delay .resetSettle t.params.resetSettle], by simp, rfl⟩
    · exact ⟨[], by simp, rfl⟩
  obtain ⟨es, htrace, hes⟩ := htrace
  exact .inl ⟨(), t.pulsed, es, pulseReset_apply t, hlater, htrace, hes⟩

theorem adds_setMode (m : RadioState) : (setMode m).Adds s n [s.wrMode m] := by
  intro t ht
  have hwrite : t.wrMode m = s.wrMode m := by
    rw [State.wrMode, State.wrMode, State.wrRadio_congr ht.params, ht.params]
  have hes : (t.observed [t.wrMode m]).filter Event.isTxn = s.observedFrom n [s.wrMode m] := by
    rw [ht.observed, State.observedFrom_filter, hwrite]
  obtain h | h := setMode_cases m t
  · exact .inl ⟨_, _, t.observed [t.wrMode m], h, (ht.transacted [t.wrMode m] rfl).setRadioState m,
      State.transacted_trace _ t, hes⟩
  · exact .inr ⟨_, _, t.observed [t.wrMode m], h, State.transacted_trace _ t, hes ▸ List.prefix_rfl⟩

theorem adds_checkIdentity : checkIdentity.Adds s n [s.rdRadio RadioMap.version] := by
  intro t ht
  have hread : t.rdRadio RadioMap.version = s.rdRadio RadioMap.version :=
    congrFun (State.rdRadio_congr ht.params) _
  have hes : (t.observed [t.rdRadio RadioMap.version]).filter Event.isTxn =
      s.observedFrom n [s.rdRadio RadioMap.version] := by
    rw [ht.observed, State.observedFrom_filter, hread]
  have htrace := State.transacted_trace [t.rdRadio RadioMap.version] t
  obtain h | h | h := checkIdentity_cases t
  · exact .inl ⟨_, _, _, h, ht.transacted [t.rdRadio RadioMap.version] rfl, htrace, hes⟩
  · exact .inr ⟨_, _, _, h, htrace, hes ▸ List.prefix_rfl⟩
  · exact .inr ⟨_, _, _, h, htrace, hes ▸ List.prefix_rfl⟩

theorem adds_configure {x : Act Unit} (hx : x.Adds s 0 ts) : (configure x).Adds s 0 ts :=
  checks_radioGate.adds.quiet_bind fun _ => adds_hazardCheck.quiet_bind fun _ => hx.bind_quiet fun _ => adds_done

/-- The transactions of a command are the first ones of its body's list. -/
theorem Act.Adds.of_runCommand {body : Act (Status × List Byte)} (hbody : body.Adds s 0 ts) {t : State}
    {es : List Event} (hrun : runCommand body s = .next t) (htrace : t.trace = s.trace ++ es) :
    es.filter Event.isTxn <+: s.observed ts := by
  obtain ⟨r, u, es', hxs, -, hu, hes⟩ | ⟨e, u, es', hxs, hu, hes⟩ := hbody s (State.Later.refl s)
  · rw [runCommand_of_ok hxs] at hrun
    injection hrun with hrun
    rw [← hrun, State.ended_trace, hu] at htrace
    rw [← List.append_cancel_left htrace, hes]
    exact List.prefix_rfl
  · rw [runCommand_of_error hxs] at hrun
    injection hrun with hrun
    rw [← hrun, State.ended_trace, hu] at htrace
    rw [← List.append_cancel_left htrace]
    exact hes

end Adds

theorem adds_constructRadio {s : State} {n : Nat} :
    Act.Adds (do setMode .standby; update (State.setRadioLife · .ready); done) s n [s.wrMode .standby] :=
  (adds_setMode _).bind_quiet fun _ => Act.Adds.quiet_bind
    (adds_update (fun h => ⟨by simp [h.params], by simp [h.draws], fun k d out => by simp [h.answerAt]⟩)
      fun _ => rfl)
    fun _ => adds_done

/-- The transactions of `RADIO_INIT` (R170). -/
def State.initTxns (s : State) (freq bw sf cr preamble : Word) (sync : Byte) (txpow : Word) (crc : Byte) :
    List (Device × List Byte) :=
  [s.rdRadio RadioMap.version] ++ ([s.wrMode .sleep] ++ (s.frequencyTxns freq.toNat ++
    (s.bandwidthTxns 5 bw.toNat ++ (s.lnaAgcTxns 7 ++ (s.txPowerTxns txpow.toInt ++
    (s.spreadingFactorTxns 11 sf.toInt ++ (s.codingRateTxns 15 cr.toInt ++
    (s.preambleTxns preamble.toNat ++ ([s.wrRadio RadioMap.syncWord sync] ++ (s.crcTxns 20 crc ++
    [s.wrMode .standby]))))))))))

theorem radioInit_transactions {s t : State} {freq bw sf cr preamble : Word} {sync : Byte} {txpow : Word}
    {crc : Byte} {es : List Event}
    (hexec : exec (.radioInit freq bw sf cr preamble sync txpow crc) s = .next t)
    (htrace : t.trace = s.trace ++ es) :
    es.filter Event.isTxn <+: s.observed (s.initTxns freq bw sf cr preamble sync txpow crc) := by
  refine Act.Adds.of_runCommand ?_ hexec htrace
  refine adds_require_bind fun hflag => ?_
  have hcrc := eq_zero_or_one_of_flagLegal hflag
  refine checks_notFailed.adds.quiet_bind fun _ => adds_pulseReset.quiet_bind fun _ => ?_
  exact adds_checkIdentity.bind_at (m := 1) rfl fun _ => (adds_setMode _).bind_at (m := 2) rfl fun _ =>
    (Act.Lists.adds fun t h => h.lists_setFrequency _).bind_at (m := 5) rfl fun _ =>
    (Act.Lists.adds fun t h => h.lists_setBandwidth _).bind_at (m := 7) rfl fun _ =>
    (Act.Lists.adds fun t h => h.lists_setLnaAgc).bind_at (m := 10) rfl fun _ =>
    (Act.Lists.adds fun t h => h.lists_setTxPower _).bind_at (m := 11) rfl fun _ =>
    (Act.Lists.adds fun t h => h.lists_setSpreadingFactor _).bind_at (m := 15) rfl fun _ =>
    (Act.Lists.adds fun t h => h.lists_setCodingRate _).bind_at (m := 17) rfl fun _ =>
    (Act.Lists.adds fun t h => h.lists_setPreamble _).bind_at (m := 19) rfl fun _ =>
    (Act.Lists.adds fun t h => h.lists_setSyncWord _).bind_at (m := 20) rfl fun _ =>
    (Act.Lists.adds fun t h => h.lists_setCrc hcrc).bind_at (m := 22) rfl fun _ =>
    adds_constructRadio

end Sys2Proof.Machine
end

section
/-! The clamp law in the reference profile (41_radio.md section 6). -/

namespace Sys2Proof.Machine

open Sys2Proof

/-! ## The power every radio command writes -/

/-- The transactions made between two states keep the power in range. -/
def State.KeepsPower (p : Params) (s t : State) : Prop :=
  ∃ es, t.trace = s.trace ++ es ∧ ∀ out ins, Event.txn .radio out ins ∈ es → p.PowerSafe out

theorem State.KeepsPower.of_trace {p : Params} {s t : State} (h : t.trace = s.trace) : s.KeepsPower p t :=
  ⟨[], by simp [h], by simp⟩

theorem State.KeepsPower.trans {p : Params} (a b c : State) (hab : a.KeepsPower p b)
    (hbc : b.KeepsPower p c) : a.KeepsPower p c := by
  obtain ⟨es, hes, hsafe⟩ := hab
  obtain ⟨es', hes', hsafe'⟩ := hbc
  refine ⟨es ++ es', by rw [hes', hes, List.append_assoc], fun out ins h => ?_⟩
  obtain h | h := List.mem_append.1 h
  · exact hsafe out ins h
  · exact hsafe' out ins h

theorem Operation.apply_keepsPower {p : Params} {i : Instr} {o : Operation} (hi : i.family = .radio)
    (ho : i.during p o ∨ i.closing p o) (s : State) : s.KeepsPower p (o.apply s) := by
  cases o with
  | transact dev out =>
    obtain ⟨-, hsafe⟩ : i.during p (.transact dev out) := ho.resolve_right id
    refine ⟨[.txn dev out (s.receivedAt 0 dev out)], by simp [Operation.apply], fun out' ins h => ?_⟩
    injection List.mem_singleton.1 h with _ hout _
    exact hout ▸ hsafe hi
  | wait w n => exact ⟨[.delay w n], by simp [Operation.apply], by simp⟩
  | pulse =>
    simp only [Operation.apply, State.pulsed]
    split
    · exact ⟨[.pin .reset false, .delay .resetPulse s.params.resetPulse, .pin .reset true,
        .delay .resetSettle s.params.resetSettle], by simp, by simp⟩
    · exact .of_trace rfl
  | checkHazard => exact .of_trace (by simp [Operation.apply])
  | recordMode _ | recordFailed | recordConstructed | recordCanMode _ | recordCanReady _
  | recordUnconfigured | setBuffer _ => exact .of_trace rfl

/-- No radio command writes a power out of range (R157). -/
theorem exec_radio_keepsPower {i : Instr} {s t : State} (hi : i.family = .radio)
    (hexec : exec i s = .next t) : s.KeepsPower s.params t := by
  have hbook : i.bookkept := by
    refine ⟨?_, by simp [hi], by simp [hi]⟩
    rintro rfl
    cases hi
  have hends := exec_endsIn hbook s
  rw [hexec] at hends
  obtain ⟨u, st, data, hu, rfl⟩ := hends.keeps (fun _ => .of_trace rfl) State.KeepsPower.trans
    fun u o ho => Operation.apply_keepsPower hi ho u
  obtain ⟨es, hes, hsafe⟩ := hu
  exact ⟨es, by rw [State.ended_trace, hes], hsafe⟩

/-! ## Bytes of a word -/

theorem unbe_twoBytes {w : Nat} (h : w < 2 ^ 16) :
    unbe [BitVec.ofNat 8 (w / 2 ^ 8), BitVec.ofNat 8 w] = w := by
  simp only [unbe, List.foldl_cons, List.foldl_nil, BitVec.toNat_ofNat]
  omega

theorem unbe_threeBytes {w : Nat} (h : w < 2 ^ 24) :
    unbe [BitVec.ofNat 8 (w / 2 ^ 16), BitVec.ofNat 8 (w / 2 ^ 8), BitVec.ofNat 8 w] = w := by
  simp only [unbe, List.foldl_cons, List.foldl_nil, BitVec.toNat_ofNat]
  omega

/-! ## The frames of the reference profile -/

section Reference

variable {s t : State} {es : List Event} {ts : List (Device × List Byte)}

/-- A transaction observed is one of the list, answered as at its index. -/
theorem exists_index_of_mem {d : Device} {out : List Byte} {ins : Option (List Byte)}
    (hes : es.filter Event.isTxn <+: s.observed ts) (h : Event.txn d out ins ∈ es) :
    ∃ k, ts[k]? = some (d, out) ∧ s.receivedAt k d out = ins := by
  have hmem := hes.subset (List.mem_filter.2 ⟨h, rfl⟩)
  obtain ⟨k, hk, heq⟩ := List.mem_mapIdx.1 hmem
  injection heq with hd hout hins
  subst hd hout
  exact ⟨k, List.getElem?_eq_getElem hk, hins⟩

theorem mem_of_observed {d : Device} {out : List Byte} {ins : Option (List Byte)}
    (hes : es.filter Event.isTxn <+: s.observed ts) (h : Event.txn d out ins ∈ es) : (d, out) ∈ ts := by
  obtain ⟨k, hk, -⟩ := exists_index_of_mem hes h
  exact List.mem_of_getElem? hk

/-- The transaction observed at an index is the one of the list there. -/
theorem getElem?_of_observed {d : Device} {out : List Byte} {ins : Option (List Byte)} {k : Nat}
    (hes : es.filter Event.isTxn <+: s.observed ts)
    (h : (es.filter Event.isTxn)[k]? = some (.txn d out ins)) : ts[k]? = some (d, out) := by
  obtain ⟨rest, hrest⟩ := hes
  obtain ⟨hk, -⟩ := List.getElem?_eq_some_iff.1 h
  have hat : (s.observed ts)[k]? = some (.txn d out ins) := by
    rw [← hrest, List.getElem?_append_left hk, h]
  rw [State.observed, List.getElem?_mapIdx] at hat
  obtain ⟨u, hu, heq⟩ := Option.map_eq_some_iff.1 hat
  injection heq with hd hout _
  rw [hu, ← hd, ← hout]

variable (hframing : s.params.framing = .reference) (hradio : s.params.radio = .reference)
include hframing hradio

theorem wrRadio_reference (reg : RadioMap → Byte) (v : Byte) :
    s.wrRadio reg v = (.radio, [0x80 ||| (reg .reference &&& 0x7F), v]) := by
  rw [State.wrRadio, hframing, hradio, writeFrame_reference]

theorem rdRadio_reference (reg : RadioMap → Byte) :
    s.rdRadio reg = (.radio, [reg .reference &&& 0x7F, 0x00]) := by
  rw [State.rdRadio, hframing, hradio, readFrame_reference]

/-- The byte a register read returns is the second one shifted in. -/
theorem radioAt_reference {k : Nat} {reg : RadioMap → Byte} {a r : Byte}
    (h : s.receivedAt k .radio [reg .reference &&& 0x7F, 0x00] = some [a, r]) : s.radioAt k reg = r := by
  rw [State.radioAt, State.readAt, hradio, hframing, readFrame_reference, h]
  rfl

/-! ### The lists of the register sequences -/

theorem spreadingFactorTxns_reference (k : Nat) (sf : Int) : ∃ optimize threshold : Byte,
    s.spreadingFactorTxns k sf = [(.radio, [0xB1, optimize]), (.radio, [0xB7, threshold]),
      (.radio, [0x1E, 0x00]), (.radio, [0x9E, withSpreadingFactor .reference
        (s.radioAt (k + 2) RadioMap.modemConfig2) (clamp sf 6 12)])] := by
  simp only [State.spreadingFactorTxns, wrRadio_reference hframing hradio, rdRadio_reference hframing hradio,
    hradio]
  exact ⟨_, _, rfl⟩

theorem codingRateTxns_reference (k : Nat) (c : Int) : s.codingRateTxns k c =
    [(.radio, [0x1D, 0x00]), (.radio, [0x9D, withCodingRate .reference
      (s.radioAt k RadioMap.modemConfig1) (clamp c 5 8)])] := by
  simp only [State.codingRateTxns, wrRadio_reference hframing hradio, rdRadio_reference hframing hradio,
    hradio]
  rfl

theorem bandwidthTxns_reference (k bw : Nat) : s.bandwidthTxns k bw =
    [(.radio, [0x1D, 0x00]), (.radio, [0x9D, withBandwidth .reference
      (s.radioAt k RadioMap.modemConfig1) (selectBandwidth s.params bw)])] := by
  simp only [State.bandwidthTxns, wrRadio_reference hframing hradio, rdRadio_reference hframing hradio,
    hradio]
  rfl

theorem frequencyTxns_reference {f w : Nat}
    (hw : w = min (rneDiv (f * 2 ^ 19) s.params.radioXtalHz) (2 ^ 24 - 1)) : s.frequencyTxns f =
    [(.radio, [0x86, BitVec.ofNat 8 (w / 2 ^ 16)]), (.radio, [0x87, BitVec.ofNat 8 (w / 2 ^ 8)]),
      (.radio, [0x88, BitVec.ofNat 8 w])] := by
  simp only [State.frequencyTxns, wrRadio_reference hframing hradio, ← hw]
  rfl

theorem preambleTxns_reference (n : Nat) : s.preambleTxns n =
    [(.radio, [0xA0, BitVec.ofNat 8 (min n 65535 / 2 ^ 8)]), (.radio, [0xA1, BitVec.ofNat 8 (min n 65535)])] := by
  simp only [State.preambleTxns, wrRadio_reference hframing hradio]
  rfl

/-! ### The bytes written -/

/-- The three bytes of the carrier word (R153). -/
theorem unbe_of_mem_frequencyTxns {f : Nat} {a b c : Byte}
    (ha : (.radio, [0x86, a]) ∈ s.frequencyTxns f) (hb : (.radio, [0x87, b]) ∈ s.frequencyTxns f)
    (hc : (.radio, [0x88, c]) ∈ s.frequencyTxns f) :
    unbe [a, b, c] = min (rneDiv (f * 2 ^ 19) s.params.radioXtalHz) (2 ^ 24 - 1) := by
  obtain ⟨w, hw⟩ : ∃ w, w = min (rneDiv (f * 2 ^ 19) s.params.radioXtalHz) (2 ^ 24 - 1) := ⟨_, rfl⟩
  rw [frequencyTxns_reference hframing hradio hw] at ha hb hc
  obtain rfl : a = BitVec.ofNat 8 (w / 2 ^ 16) := by simpa using ha
  obtain rfl : b = BitVec.ofNat 8 (w / 2 ^ 8) := by simpa using hb
  obtain rfl : c = BitVec.ofNat 8 w := by simpa using hc
  exact (unbe_threeBytes (by omega)).trans hw

/-- The two bytes of the preamble length (R160). -/
theorem unbe_of_mem_preambleTxns {n : Nat} {a b : Byte} (ha : (.radio, [0xA0, a]) ∈ s.preambleTxns n)
    (hb : (.radio, [0xA1, b]) ∈ s.preambleTxns n) : unbe [a, b] = min n 65535 := by
  rw [preambleTxns_reference hframing hradio] at ha hb
  obtain rfl : a = BitVec.ofNat 8 (min n 65535 / 2 ^ 8) := by simpa using ha
  obtain rfl : b = BitVec.ofNat 8 (min n 65535) := by simpa using hb
  exact unbe_twoBytes (by omega)

/-- A register written with a byte made by `f` from what a read at index `j` gave. -/
theorem made_of_read {reg : RadioMap → Byte} {f : Byte → Byte} {w v : Byte} {j : Nat}
    {ins : Option (List Byte)} (hes : es.filter Event.isTxn <+: s.observed ts)
    (hwrite : ∀ v, (.radio, [w, v]) ∈ ts → v = f (s.radioAt j reg))
    (hread : ∀ k, ts[k]? = some (.radio, [reg .reference &&& 0x7F, 0x00]) → k = j)
    (hv : Event.txn .radio [w, v] ins ∈ es) :
    v = f (s.radioAt j reg) ∧ ∀ a r, Event.txn .radio [reg .reference &&& 0x7F, 0x00] (some [a, r]) ∈ es →
      s.radioAt j reg = r := by
  obtain ⟨k, hk, -⟩ := exists_index_of_mem hes hv
  refine ⟨hwrite v (List.mem_of_getElem? hk), fun a r hr => ?_⟩
  obtain ⟨k, hk, hins⟩ := exists_index_of_mem hes hr
  obtain rfl := hread k hk
  exact radioAt_reference hframing hradio hins

theorem setSf_made {sf : Int} {v : Byte} {ins : Option (List Byte)}
    (hes : es.filter Event.isTxn <+: s.observed (s.spreadingFactorTxns 0 sf))
    (hv : Event.txn .radio [0x9E, v] ins ∈ es) :
    v = withSpreadingFactor .reference (s.radioAt 2 RadioMap.modemConfig2) (clamp sf 6 12) ∧
      ∀ a r, Event.txn .radio [0x1E, 0x00] (some [a, r]) ∈ es → s.radioAt 2 RadioMap.modemConfig2 = r := by
  obtain ⟨optimize, threshold, heq⟩ := spreadingFactorTxns_reference hframing hradio 0 sf
  refine made_of_read hframing hradio (f := fun r => withSpreadingFactor .reference r (clamp sf 6 12)) hes
    (fun v hv => by simpa [heq] using hv) (fun k hk => ?_) hv
  obtain _ | _ | _ | _ | k := k
  all_goals simp [heq, RadioMap.reference] at hk ⊢

/-- A read of RegModemConfig1 and the write of a byte made from it. -/
theorem modemConfig1_made {f : Byte → Byte} {v : Byte} {ins : Option (List Byte)}
    (hes : es.filter Event.isTxn <+: s.observed
      [(.radio, [0x1D, 0x00]), (.radio, [0x9D, f (s.radioAt 0 RadioMap.modemConfig1)])])
    (hv : Event.txn .radio [0x9D, v] ins ∈ es) :
    v = f (s.radioAt 0 RadioMap.modemConfig1) ∧
      ∀ a r, Event.txn .radio [0x1D, 0x00] (some [a, r]) ∈ es → s.radioAt 0 RadioMap.modemConfig1 = r := by
  refine made_of_read hframing hradio hes (fun v hv => by simpa using hv) (fun k hk => ?_) hv
  obtain _ | _ | k := k
  all_goals simp [RadioMap.reference] at hk ⊢

end Reference

/-! ## The fields of the bytes written -/

theorem clamp_mem (x : Int) {lo hi : Int} (h : lo ≤ hi) : lo ≤ clamp x lo hi ∧ clamp x lo hi ≤ hi :=
  ⟨le_min (le_max_right _ _) h, min_le_right _ _⟩

theorem withBandwidth_fields (r : Byte) (code : BitVec 4) :
    (withBandwidth .reference r code).extractLsb' 4 4 = code ∧
    withBandwidth .reference r code &&& 0x0F = r &&& 0x0F := by
  rw [withBandwidth_reference]
  constructor
  · refine BitVec.eq_of_getLsbD_eq fun i hi => ?_
    interval_cases i <;> simp
  · refine BitVec.eq_of_getLsbD_eq fun i hi => ?_
    interval_cases i <;> simp

/-- The factor is the upper half of RegModemConfig2. -/
theorem withSpreadingFactor_fields (r : Byte) (sf : Int) :
    (6 ≤ (withSpreadingFactor .reference r (clamp sf 6 12)).toNat / 16 ∧
      (withSpreadingFactor .reference r (clamp sf 6 12)).toNat / 16 ≤ 12) ∧
    withSpreadingFactor .reference r (clamp sf 6 12) &&& 0x0F = r &&& 0x0F := by
  obtain ⟨hmin, hmax⟩ := clamp_mem sf (by decide : (6 : Int) ≤ 12)
  generalize clamp sf 6 12 = q at hmin hmax
  have hsame : withSpreadingFactor .reference r q = withBandwidth .reference r (BitVec.ofInt 4 q) := by
    rw [withSpreadingFactor_reference r hmin hmax, withBandwidth_reference]
    interval_cases q <;> rfl
  obtain ⟨hcode, hrest⟩ := withBandwidth_fields r (BitVec.ofInt 4 q)
  rw [hsame]
  refine ⟨?_, hrest⟩
  generalize withBandwidth .reference r (BitVec.ofInt 4 q) = v at hcode
  have hupper : v.toNat / 16 = (v.extractLsb' 4 4).toNat := by
    rw [BitVec.extractLsb'_toNat, Nat.shiftRight_eq_div_pow]
    omega
  rw [hupper, hcode]
  interval_cases q <;> decide

theorem withCodingRate_fields (r : Byte) (c : Int) :
    (1 ≤ ((withCodingRate .reference r (clamp c 5 8)).extractLsb' 1 3).toNat ∧
      ((withCodingRate .reference r (clamp c 5 8)).extractLsb' 1 3).toNat ≤ 4) ∧
    withCodingRate .reference r (clamp c 5 8) &&& 0xF1 = r &&& 0xF1 := by
  obtain ⟨hmin, hmax⟩ := clamp_mem c (by decide : (5 : Int) ≤ 8)
  generalize clamp c 5 8 = q at hmin hmax
  rw [withCodingRate_reference r hmin hmax]
  revert r
  interval_cases q <;> decide

/-- The code selected is the default one, or one of the table's. -/
theorem selectBandwidth_code (p : Params) (bw : Word) :
    if bw = 0 ∨ p.bwTable = [] then selectBandwidth p bw.toNat = p.bwDefaultCode
    else selectBandwidth p bw.toNat ∈ p.bwTable.map Prod.snd := by
  have hzero : bw.toNat = 0 ↔ bw = 0 := by rw [← BitVec.toNat_inj]; rfl
  split
  · next h =>
    obtain h | h := h
    · rw [h]
      exact selectBandwidth_zero p
    · rw [selectBandwidth, h]
      split <;> rfl
  · next h =>
    obtain ⟨hbw, htable⟩ := not_or.1 h
    obtain ⟨i, e, ⟨he, -⟩, hcode⟩ := selectBandwidth_isNearest (mt hzero.1 hbw) htable
    rw [hcode]
    exact List.mem_map_of_mem (List.mem_of_getElem? he)

/-- RegModemConfig1 with the bandwidth selected for an operand (R154, R155). -/
theorem withBandwidth_code (p : Params) (bw : Word) (r : Byte) :
    if bw = 0 ∨ p.bwTable = [] then
      (withBandwidth .reference r (selectBandwidth p bw.toNat)).extractLsb' 4 4 = p.bwDefaultCode
    else (withBandwidth .reference r (selectBandwidth p bw.toNat)).extractLsb' 4 4 ∈
      p.bwTable.map Prod.snd := by
  obtain ⟨hcode, -⟩ := withBandwidth_fields r (selectBandwidth p bw.toNat)
  rw [hcode]
  exact selectBandwidth_code p bw

/-- The transactions of a single-parameter configuration command. -/
theorem configure_transactions {s t : State} {x : Act Unit} {ts : List (Device × List Byte)} {es : List Event}
    (hx : ∀ {u}, s.Later u 0 → x.Lists u ts) (hrun : runCommand (configure x) s = .next t)
    (htrace : t.trace = s.trace ++ es) : es.filter Event.isTxn <+: s.observed ts :=
  (adds_configure (Act.Lists.adds fun _ => hx)).of_runCommand hrun htrace

/-! ## RADIO_INIT -/

section Init

variable {s : State} (hframing : s.params.framing = .reference) (hradio : s.params.radio = .reference)
  {freq bw sf cr preamble : Word} {sync : Byte} {txpow : Word} {crc : Byte} {v : Byte}
include hframing hradio

/-- In `RADIO_INIT` only `SetFrequency` writes the carrier's registers, and only `SetPreamble` the preamble's. -/
theorem mem_of_mem_initTxns {w : Byte} (hw : w = 0x86 ∨ w = 0x87 ∨ w = 0x88 ∨ w = 0xA0 ∨ w = 0xA1)
    (h : (.radio, [w, v]) ∈ s.initTxns freq bw sf cr preamble sync txpow crc) :
    (.radio, [w, v]) ∈ s.frequencyTxns freq.toNat ∨ (.radio, [w, v]) ∈ s.preambleTxns preamble.toNat := by
  obtain ⟨optimize, threshold, hsf⟩ := spreadingFactorTxns_reference hframing hradio 11 sf.toInt
  simp only [State.initTxns, State.wrMode, State.lnaAgcTxns, State.txPowerTxns, State.crcTxns, hsf,
    codingRateTxns_reference hframing hradio, bandwidthTxns_reference hframing hradio,
    wrRadio_reference hframing hradio, rdRadio_reference hframing hradio, RadioMap.reference,
    List.mem_append, List.mem_cons, Prod.mk.injEq, List.cons.injEq, List.not_mem_nil] at h
  obtain rfl | rfl | rfl | rfl | rfl := hw <;> simpa using h

theorem mem_frequencyTxns_of_mem_initTxns {w : Byte} (hw : w = 0x86 ∨ w = 0x87 ∨ w = 0x88)
    (h : (.radio, [w, v]) ∈ s.initTxns freq bw sf cr preamble sync txpow crc) :
    (.radio, [w, v]) ∈ s.frequencyTxns freq.toNat := by
  refine (mem_of_mem_initTxns hframing hradio (by tauto) h).resolve_right ?_
  rw [preambleTxns_reference hframing hradio]
  obtain rfl | rfl | rfl := hw <;> simp

theorem mem_preambleTxns_of_mem_initTxns {w : Byte} (hw : w = 0xA0 ∨ w = 0xA1)
    (h : (.radio, [w, v]) ∈ s.initTxns freq bw sf cr preamble sync txpow crc) :
    (.radio, [w, v]) ∈ s.preambleTxns preamble.toNat := by
  refine (mem_of_mem_initTxns hframing hradio (by tauto) h).resolve_left ?_
  rw [frequencyTxns_reference hframing hradio rfl]
  obtain rfl | rfl := hw <;> simp

theorem getElem?_initTxns_sf
    (h : (s.initTxns freq bw sf cr preamble sync txpow crc)[14]? = some (.radio, [0x9E, v])) :
    v = withSpreadingFactor .reference (s.radioAt 13 RadioMap.modemConfig2) (clamp sf.toInt 6 12) := by
  have hat : (s.initTxns freq bw sf cr preamble sync txpow crc)[14]? =
      (s.spreadingFactorTxns 11 sf.toInt)[3]? := rfl
  obtain ⟨optimize, threshold, hsf⟩ := spreadingFactorTxns_reference hframing hradio 11 sf.toInt
  rw [hat, hsf] at h
  simpa using h.symm

theorem getElem?_initTxns_cr
    (h : (s.initTxns freq bw sf cr preamble sync txpow crc)[16]? = some (.radio, [0x9D, v])) :
    v = withCodingRate .reference (s.radioAt 15 RadioMap.modemConfig1) (clamp cr.toInt 5 8) := by
  have hat : (s.initTxns freq bw sf cr preamble sync txpow crc)[16]? =
      (s.codingRateTxns 15 cr.toInt)[1]? := rfl
  rw [hat, codingRateTxns_reference hframing hradio] at h
  simpa using h.symm

theorem getElem?_initTxns_bw
    (h : (s.initTxns freq bw sf cr preamble sync txpow crc)[6]? = some (.radio, [0x9D, v])) :
    v = withBandwidth .reference (s.radioAt 5 RadioMap.modemConfig1) (selectBandwidth s.params bw.toNat) := by
  have hat : (s.initTxns freq bw sf cr preamble sync txpow crc)[6]? = (s.bandwidthTxns 5 bw.toNat)[1]? := rfl
  rw [hat, bandwidthTxns_reference hframing hradio] at h
  simpa using h.symm

end Init

/-- Settles O56: what a command puts on the bus are the first transactions of its list, and in the reference profile
each frame of the lists is known up to the bytes read. -/
theorem clampLaw : Obligations.ClampLaw := by
  intro s t i es hframing hradio hexec htrace
  refine ⟨?power, ?factor, ?rate, ?bandwidth, ?carrier, ?symbols, ?init⟩
  case power =>
    rintro hi v ⟨ins, hv⟩
    obtain ⟨es', htrace', hsafe⟩ := exec_radio_keepsPower hi hexec
    rw [htrace'] at htrace
    rw [← List.append_cancel_left htrace] at hv
    exact hsafe _ ins hv hframing hradio v rfl
  case factor =>
    rintro sf rfl v ⟨ins, hv⟩
    have hes := configure_transactions (fun h => h.lists_setSpreadingFactor sf.toInt) hexec htrace
    obtain ⟨rfl, hread⟩ := setSf_made hframing hradio hes hv
    obtain ⟨hfactor, hrest⟩ := withSpreadingFactor_fields (s.radioAt 2 RadioMap.modemConfig2) sf.toInt
    refine ⟨hfactor, ?_⟩
    rintro r ⟨a, hr⟩
    rw [← hread a r hr]
    exact hrest
  case rate =>
    rintro cr rfl v ⟨ins, hv⟩
    have hes := configure_transactions (fun h => h.lists_setCodingRate cr.toInt) hexec htrace
    rw [codingRateTxns_reference hframing hradio] at hes
    obtain ⟨rfl, hread⟩ := modemConfig1_made hframing hradio
      (f := fun r => withCodingRate .reference r (clamp cr.toInt 5 8)) hes hv
    obtain ⟨hrate, hrest⟩ := withCodingRate_fields (s.radioAt 0 RadioMap.modemConfig1) cr.toInt
    refine ⟨hrate, ?_⟩
    rintro r ⟨a, hr⟩
    rw [← hread a r hr]
    exact hrest
  case bandwidth =>
    rintro bw rfl v ⟨ins, hv⟩
    have hes := configure_transactions (fun h => h.lists_setBandwidth bw.toNat) hexec htrace
    rw [bandwidthTxns_reference hframing hradio] at hes
    obtain ⟨rfl, hread⟩ := modemConfig1_made hframing hradio
      (f := fun r => withBandwidth .reference r (selectBandwidth s.params bw.toNat)) hes hv
    obtain ⟨-, hrest⟩ := withBandwidth_fields (s.radioAt 0 RadioMap.modemConfig1)
      (selectBandwidth s.params bw.toNat)
    refine ⟨withBandwidth_code s.params bw _, ?_⟩
    rintro r ⟨a, hr⟩
    rw [← hread a r hr]
    exact hrest
  case carrier =>
    rintro freq rfl a b c ⟨_, ha⟩ ⟨_, hb⟩ ⟨_, hc⟩
    have hes := configure_transactions (fun h => h.lists_setFrequency freq.toNat) hexec htrace
    exact unbe_of_mem_frequencyTxns hframing hradio (mem_of_observed hes ha) (mem_of_observed hes hb)
      (mem_of_observed hes hc)
  case symbols =>
    rintro n rfl a b ⟨_, ha⟩ ⟨_, hb⟩
    have hes := configure_transactions (fun h => h.lists_setPreamble n.toNat) hexec htrace
    exact unbe_of_mem_preambleTxns hframing hradio (mem_of_observed hes ha) (mem_of_observed hes hb)
  case init =>
    rintro freq bw sf cr n sync txpow crc rfl
    have hes := radioInit_transactions hexec htrace
    refine ⟨?_, ?_, ?_, ?_, ?_⟩
    · rintro a b c ⟨_, ha⟩ ⟨_, hb⟩ ⟨_, hc⟩
      exact unbe_of_mem_frequencyTxns hframing hradio
        (mem_frequencyTxns_of_mem_initTxns hframing hradio (.inl rfl) (mem_of_observed hes ha))
        (mem_frequencyTxns_of_mem_initTxns hframing hradio (.inr (.inl rfl)) (mem_of_observed hes hb))
        (mem_frequencyTxns_of_mem_initTxns hframing hradio (.inr (.inr rfl)) (mem_of_observed hes hc))
    · rintro a b ⟨_, ha⟩ ⟨_, hb⟩
      exact unbe_of_mem_preambleTxns hframing hradio
        (mem_preambleTxns_of_mem_initTxns hframing hradio (.inl rfl) (mem_of_observed hes ha))
        (mem_preambleTxns_of_mem_initTxns hframing hradio (.inr rfl) (mem_of_observed hes hb))
    · rintro v ⟨_, hv⟩
      obtain rfl := getElem?_initTxns_sf hframing hradio (getElem?_of_observed hes hv)
      obtain ⟨hfactor, -⟩ := withSpreadingFactor_fields (s.radioAt 13 RadioMap.modemConfig2) sf.toInt
      exact hfactor
    · rintro v ⟨_, hv⟩
      obtain rfl := getElem?_initTxns_cr hframing hradio (getElem?_of_observed hes hv)
      obtain ⟨hrate, -⟩ := withCodingRate_fields (s.radioAt 15 RadioMap.modemConfig1) cr.toInt
      exact hrate
    · rintro v ⟨_, hv⟩
      obtain rfl := getElem?_initTxns_bw hframing hradio (getElem?_of_observed hes hv)
      exact withBandwidth_code s.params bw _

end Sys2Proof.Machine
end
